-- ==== Sys2Proof/Word.lean ====
section
/-! DEFINITION. The word types of the block: the widths of 10_state.md rule R54 and of the command word
(30_encoding.md rule R101), and the selector (rule R104). -/

namespace Sys2Proof

/-- A 24-bit field: speeds, delays, quantities, step counts, periods and counters (92_eei_decisions.md D5). -/
abbrev U24 := BitVec 24

/-- A 32-bit field: `tick_count`, `tmr_acc`, `rsp`. -/
abbrev U32 := BitVec 32

/-- The levels of the six TCH lines, bit 0 `INH1` to bit 5 `PWM3` (00_scope.md rule R11). -/
abbrev Lines := BitVec 6

/-- A command word as presented on `cmd[31:0]` (30_encoding.md rule R100). -/
abbrev CmdWord := BitVec 32

abbrev Byte := BitVec 8

/-- The value of the two selector bits: a context index `c0`..`c3` or a register index `a0`..`a3`
(30_encoding.md rule R104). -/
abbrev Sel := Fin 4

end Sys2Proof
end

