-- ==== Sys2Proof/Syntax.lean ====
section
/-! DEFINITION. The thirteen commands of SCUDRV-1, one constructor per row of spec/opcode_table.json
(30_encoding.md rule R105). The words with a reserved opcode (rule R109) are no commands and have no constructor. -/

namespace Sys2Proof

/-- A command with its operands as 30_encoding.md rules R103 and R104 read them. -/
inductive Instr where
  /-- `NOP` (R204). -/
  | nop
  /-- `TINIT`: initialise the Commutation Drive (R132). -/
  | tinit
  /-- `TTASK`: one invocation of the commutation task (R134). -/
  | ttask
  /-- `SPDW v`: write the shared speed value, `v` zero-extended (R131). -/
  | spdw (v : U24)
  /-- `LDARG ak, v`: load an operand staging register, `v` zero-extended (R160). -/
  | ldarg (k : Sel) (v : U24)
  /-- `NINIT c`: initialise a needle context (R162). -/
  | ninit (c : Sel)
  /-- `NSETT c, q`: set the target quantity, `q` signed (R103, R165). -/
  | nsett (c : Sel) (q : Int)
  /-- `NGETP c`: read back the current quantity (R167). -/
  | ngetp (c : Sel)
  /-- `NSTART c`: enable (R169). -/
  | nstart (c : Sel)
  /-- `NSTOP c`: disable (R170). -/
  | nstop (c : Sel)
  /-- `NTASK c`: one invocation of the needle task (R172). -/
  | ntask (c : Sel)
  /-- `MSINIT`: initialise the power aggregator (R201). -/
  | msinit
  /-- `MSPWR`: aggregate the power enables (R202). -/
  | mspwr
  deriving DecidableEq, Repr

end Sys2Proof
end

