-- ==== Sys2Proof/WellFormed.lean ====
section
/-! DEFINITION. Which commands have an encoding. Every operand but one has a type that holds exactly the values its
field can hold; the signed quantity of `NSETT` is an integer, and 30_encoding.md rules R103 and R112 bound it. -/

namespace Sys2Proof

/-- The range the assembler accepts for the quantity of `NSETT`: -2^23 .. 2^23 - 1 (R103, R112). -/
def quantityFits (q : Int) : Bool := decide (-8388608 ≤ q) && decide (q ≤ 8388607)

/-- A command that a command word can express. -/
def Instr.wellFormed : Instr → Bool
  | .nop => true
  | .tinit => true
  | .ttask => true
  | .spdw _ => true
  | .ldarg _ _ => true
  | .ninit _ => true
  | .nsett _ q => quantityFits q
  | .ngetp _ => true
  | .nstart _ => true
  | .nstop _ => true
  | .ntask _ => true
  | .msinit => true
  | .mspwr => true

end Sys2Proof
end

