-- ==== Sys2Proof/Decode.lean ====
section
/-! DEFINITION. Decoding and encoding of command words (30_encoding.md rules R100 to R110), and the byte form of a
stored command stream (20_memory.md rule R74). -/

namespace Sys2Proof

/-- Why bits are no command. -/
inductive DecodeError where
  /-- The opcode is one of the fifty reserved ones (R109). -/
  | reservedOpcode (op : BitVec 6)
  /-- A byte stream ended inside a command word. The command port has no such case; log entry 13. -/
  | truncated
  deriving DecidableEq, Repr

/-! ### Fields of the command word (R101) -/

/-- `op`, bits 31:26. -/
def opField (w : CmdWord) : BitVec 6 := w.extractLsb' 26 6

/-- `sel`, bits 25:24: `ctx` or `k` (R104). -/
def selField (w : CmdWord) : Sel := (w.extractLsb' 24 2).toFin

/-- `imm24`, bits 23:0, used zero-extended (R103). -/
def immField (w : CmdWord) : U24 := w.extractLsb' 0 24

/-- `sext_24` (00_scope.md rule R13): `v` if `v < 2^23`, else `v - 2^24`. -/
def sext24 (v : U24) : Int := if v.toNat < 8388608 then (v.toNat : Int) else (v.toNat : Int) - 16777216

/-! ### Decoding (R105, R106) -/

/-- The command a word stands for; reserved fields are ignored (R110), reserved opcodes are named (R109). -/
def decode (w : CmdWord) : Except DecodeError Instr :=
  match (opField w).toNat with
  | 0x00 => .ok .nop
  | 0x01 => .ok .tinit
  | 0x02 => .ok .ttask
  | 0x03 => .ok (.spdw (immField w))
  | 0x08 => .ok (.ldarg (selField w) (immField w))
  | 0x09 => .ok (.ninit (selField w))
  | 0x0A => .ok (.nsett (selField w) (sext24 (immField w)))
  | 0x0B => .ok (.ngetp (selField w))
  | 0x0C => .ok (.nstart (selField w))
  | 0x0D => .ok (.nstop (selField w))
  | 0x0E => .ok (.ntask (selField w))
  | 0x10 => .ok .msinit
  | 0x11 => .ok .mspwr
  | _ => .error (.reservedOpcode (opField w))

/-- The word whose bytes are stored at rising addresses, the lowest address holding `cmd[7:0]` (R74). -/
def wordOfBytes (b0 b1 b2 b3 : Byte) : CmdWord := b3 ++ b2 ++ b1 ++ b0

/-- The four bytes of a word, lowest address first (R74). -/
def bytesOfWord (w : CmdWord) : List Byte :=
  [w.extractLsb' 0 8, w.extractLsb' 8 8, w.extractLsb' 16 8, w.extractLsb' 24 8]

/-- Decode the first command of a stored command stream, with the rest of the stream. -/
def decodeBytes : List Byte → Except DecodeError (Instr × List Byte)
  | b0 :: b1 :: b2 :: b3 :: rest =>
    match decode (wordOfBytes b0 b1 b2 b3) with
    | .ok i => .ok (i, rest)
    | .error e => .error e
  | _ => .error .truncated

/-! ### Encoding -/

/-- The opcode of a command (R105). -/
def Instr.opcode : Instr → BitVec 6
  | .nop => 0x00
  | .tinit => 0x01
  | .ttask => 0x02
  | .spdw _ => 0x03
  | .ldarg _ _ => 0x08
  | .ninit _ => 0x09
  | .nsett _ _ => 0x0A
  | .ngetp _ => 0x0B
  | .nstart _ => 0x0C
  | .nstop _ => 0x0D
  | .ntask _ => 0x0E
  | .msinit => 0x10
  | .mspwr => 0x11

/-- Assemble the three fields of a command word (R101). -/
def packWord (op : BitVec 6) (sel : Sel) (imm : U24) : CmdWord := op ++ BitVec.ofFin (w := 2) sel ++ imm

/-- The word the assembler writes for a command, reserved fields 0 (R102, R110). -/
def encode (i : Instr) : CmdWord :=
  match i with
  | .nop => packWord i.opcode 0 0
  | .tinit => packWord i.opcode 0 0
  | .ttask => packWord i.opcode 0 0
  | .spdw v => packWord i.opcode 0 v
  | .ldarg k v => packWord i.opcode k v
  | .ninit c => packWord i.opcode c 0
  | .nsett c q => packWord i.opcode c (BitVec.ofInt 24 q)
  | .ngetp c => packWord i.opcode c 0
  | .nstart c => packWord i.opcode c 0
  | .nstop c => packWord i.opcode c 0
  | .ntask c => packWord i.opcode c 0
  | .msinit => packWord i.opcode 0 0
  | .mspwr => packWord i.opcode 0 0

/-- The bits of the word that the format of a command uses; the others are reserved in it and ignored
(R102, R110). Formats Z, I, C and CI in this order in the masks below. -/
def usedBits : Instr → CmdWord
  | .nop => 0xFC000000
  | .tinit => 0xFC000000
  | .ttask => 0xFC000000
  | .msinit => 0xFC000000
  | .mspwr => 0xFC000000
  | .spdw _ => 0xFCFFFFFF
  | .ninit _ => 0xFF000000
  | .ngetp _ => 0xFF000000
  | .nstart _ => 0xFF000000
  | .nstop _ => 0xFF000000
  | .ntask _ => 0xFF000000
  | .ldarg _ _ => 0xFFFFFFFF
  | .nsett _ _ => 0xFFFFFFFF

/-! ### The host's reading of the opcode table -/

/-- The command whose bits, numbered as spec/opcode_table.json numbers them, are the low `nbits` bits of `w`:
laid out as stored bytes, then decoded. -/
def decodeTableWord (nbits w : Nat) : Option Instr :=
  match decodeBytes (bytesOfWord (BitVec.ofNat 32 (w % 2 ^ nbits))) with
  | .ok (i, _) => some i
  | .error _ => none

end Sys2Proof
end

