-- ==== Sys2Proof/Config.lean ====
section
/-! DEFINITION. The implementation parameters of 00_scope.md rule R8 and the free values of the model. Nothing here is
state: no step changes it (10_state.md rule R20). -/

namespace Sys2Proof

/-- The six sectors of an electrical cycle, the indices of `PATTERN[1..6]` (10_state.md rules R26, R27). -/
inductive Sector where
  | step1 | step2 | step3 | step4 | step5 | step6
  deriving DecidableEq, Repr

/-- A ramp law: the next inter-step period from the current period, the remaining distance, the inertia allowance,
the minimum period and the initial period, in the order of 41_mano.md rule R176. -/
abbrev RampLaw := (p rem inertia pmin pinit : U24) → U24

/-- What 41_mano.md rule R176 asks of every ramp law, for all arguments with `1 ≤ pmin ≤ p ≤ pinit`. -/
structure RampLaw.Admissible (ramp : RampLaw) : Prop where
  /-- P1. -/
  bounds : ∀ p rem inertia pmin pinit : U24,
    1 ≤ pmin.toNat → pmin.toNat ≤ p.toNat → p.toNat ≤ pinit.toNat →
      pmin.toNat ≤ (ramp p rem inertia pmin pinit).toNat ∧ (ramp p rem inertia pmin pinit).toNat ≤ pinit.toNat
  /-- P2. -/
  shortens : ∀ p rem inertia pmin pinit : U24,
    1 ≤ pmin.toNat → pmin.toNat ≤ p.toNat → p.toNat ≤ pinit.toNat →
      inertia.toNat < rem.toNat → (ramp p rem inertia pmin pinit).toNat ≤ p.toNat
  /-- P3. -/
  lengthens : ∀ p rem inertia pmin pinit : U24,
    1 ≤ pmin.toNat → pmin.toNat ≤ p.toNat → p.toNat ≤ pinit.toNat →
      rem.toNat ≤ inertia.toNat → p.toNat ≤ (ramp p rem inertia pmin pinit).toNat

/-- The recommended linear law with increment `RAMP_STEP` (41_mano.md rule R177). The subtraction of naturals stops at
0, below every `pmin`, so the maximum is that of the rule. -/
def linearRamp (rampStep : Nat) : RampLaw := fun p rem inertia pmin pinit =>
  if inertia.toNat < rem.toNat then BitVec.ofNat 24 (max pmin.toNat (p.toNat - rampStep))
  else BitVec.ofNat 24 (min pinit.toNat (p.toNat + rampStep))

/-- The linear law meets P1 to P3 (the remark of 41_mano.md rule R177). -/
theorem linearRamp_admissible (rampStep : Nat) : (linearRamp rampStep).Admissible := by
  constructor <;> intro p rem inertia pmin pinit h1 h2 h3 <;>
    have := p.isLt <;> have := pinit.isLt <;> unfold linearRamp
  · split <;> simp only [BitVec.toNat_ofNat] <;> omega
  · intro h; rw [if_pos h]; simp only [BitVec.toNat_ofNat]; omega
  · intro h; rw [if_neg (by omega)]; simp only [BitVec.toNat_ofNat]; omega

/-- The spec's own test table `T_REF` (00_scope.md rule R8). -/
def tRef (v : Nat) : Nat := if v = 0 then 60000 else 60000 / v

theorem tRef_le (v : Nat) : tRef v ≤ 60000 := by
  unfold tRef; split
  · exact Nat.le_refl _
  · exact Nat.div_le_self _ _

/-- `T_REF` is non-increasing, as the table constraint asks (00_scope.md rule R8). -/
theorem tRef_antitone (i : Nat) : tRef (i + 1) ≤ tRef i := by
  by_cases hi : i = 0
  · subst hi; decide
  · have h : 60000 / (i + 1) ≤ 60000 / i := Nat.div_le_div_left (Nat.le_succ i) (by omega)
    simpa [tRef, hi] using h

/-- The spec's recommended six output patterns (10_state.md rule R27). -/
def recommendedPattern : Sector → Lines
  | .step1 => 0x07
  | .step2 => 0x13
  | .step3 => 0x1C
  | .step4 => 0x0D
  | .step5 => 0x31
  | .step6 => 0x34

/-- The parameters of 00_scope.md rule R8 with the constraints that rule puts on them. The default values are those of
the parameter set VSET; they only show that the constraints can be met and serve `Params.vset` in the tests. `RAMP_STEP`
is the argument of `linearRamp`, so any value of it is one of the laws `ramp` ranges over. -/
structure Params where
  /-- `TICK_US`, microseconds. -/
  tickUs : Nat := 100
  /-- `SPEED_MAX`, km/h. -/
  speedMax : Nat := 149
  /-- `SPEED_MIN`, km/h. -/
  speedMin : Nat := 5
  /-- `TABLE[0..SPEED_MAX]`, microseconds (10_state.md rule R24). -/
  table : Fin (speedMax + 1) → U24 := fun i => BitVec.ofNat 24 (tRef i.val)
  /-- `PATTERN[1..6]`. -/
  pattern : Sector → Lines := recommendedPattern
  /-- `NCTX`. -/
  nctx : Nat := 2
  /-- `START_STEP[c]`; entries of an index not below `nctx` are never read. -/
  startStep : Sel → U24 := fun _ => 0
  /-- `PERIOD_INIT`, in `NTASK` executions. -/
  periodInit : U24 := 8
  /-- `RAMP` (41_mano.md rule R176). -/
  ramp : RampLaw := linearRamp 1
  tickUs_range : 1 ≤ tickUs ∧ tickUs ≤ 65535 := by decide
  speedMin_range : 1 ≤ speedMin ∧ speedMin ≤ speedMax := by decide
  speedMax_lt : speedMax < 2 ^ 24 := by decide
  /-- Non-increasing on `SPEED_MIN..SPEED_MAX` only (90_conflicts.md C3). -/
  table_antitone : ∀ (i : Nat) (h : i + 1 < speedMax + 1), speedMin ≤ i →
    (table ⟨i + 1, h⟩).toNat ≤ (table ⟨i, Nat.lt_of_succ_lt h⟩).toNat := by
      intro i h hi
      have h1 := tRef_antitone i
      have h2 := tRef_le i
      simp only [BitVec.toNat_ofNat]
      omega
  pattern_injective : ∀ j k, pattern j = pattern k → j = k := by
    intro j k; cases j <;> cases k <;> decide
  pattern_ne_zero : ∀ k, pattern k ≠ 0 := by
    intro k; cases k <;> decide
  nctx_range : 1 ≤ nctx ∧ nctx ≤ 4 := by decide
  periodInit_pos : 1 ≤ periodInit.toNat := by decide
  ramp_admissible : ramp.Admissible := by exact linearRamp_admissible 1
  deriving Inhabited

/-- The parameter set VSET of 95_test_vectors.md. Only tests use it. -/
def Params.vset : Params := {}

/-- The parameters of the block at hand. Nothing about them is known but the constraints in their type, as
00_scope.md rule R8 asks ("A model must not hard-code a recommended value"). Log entry 1. -/
opaque Config.params : Params

/-- FREE VALUE: what a 32-bit field holds after a write of a number that does not fit it. The spec shows that this
happens in no state that meets its invariants (00_scope.md rule R16) and says nothing of the others. Log entry 7. -/
opaque Config.misfit : Nat → U32

end Sys2Proof
end

