-- ==== Sys2Proof/Machine/State.lean ====
section
/-! DEFINITION. The state of the block: the table of 10_state.md rule R54, the output trace of rule R52, and the
strobes still to come on the input ports of 00_scope.md rule R11 (the model's own field, log entry 4). -/

namespace Sys2Proof.Machine

/-- CommutationState (10_state.md rule R26): OFF, STEP1..STEP6, and the unrecognized internal state 7. -/
inductive CommutationState where
  | off
  | sector (k : Sector)
  | unrecognized
  deriving DecidableEq, Repr

/-- One needle context (10_state.md rule R36). Field `f` of context `c` is the spec's `n_f[c]`. -/
structure NeedleContext where
  /-- `n_init`: registered (R37). -/
  init : Bool
  /-- `n_max_q` (R38). -/
  maxQ : U24
  /-- `n_max_steps` (R38). -/
  maxSteps : U24
  /-- `n_inertia` (R39). -/
  inertia : U24
  /-- `n_period_min` (R40). -/
  periodMin : U24
  /-- `n_enable` (R41). -/
  enable : Bool
  /-- `n_tgt` (R43). -/
  tgt : U24
  /-- `n_cur` (R44). -/
  cur : U24
  /-- `n_cnt` (R45). -/
  cnt : U24
  /-- `n_period` (R46). -/
  period : U24
  /-- `n_dir` (R47). -/
  dir : Bool
  deriving DecidableEq, Repr

/-- An event of the output trace (10_state.md rule R52): one pulse on `step[c]` while `dir[c]` is at level `d`. -/
inductive Event where
  | stepPulse (c : Sel) (d : Bool)
  deriving DecidableEq, Repr

/-- What the outside strobes at one moment (00_scope.md rule R11). -/
inductive Input where
  /-- `rst`, or power-up (70_reset_and_hazards.md rule R260). -/
  | rst
  /-- One tick event (60_exceptions.md rule R225). -/
  | tick
  /-- `cmd_valid` with the word on `cmd`. -/
  | cmd (w : CmdWord)
  /-- `tick` and `cmd_valid` in the same clock cycle (60_exceptions.md rule R229). -/
  | tickCmd (w : CmdWord)
  deriving DecidableEq, Repr

/-- The state of the block (10_state.md rules R20 and R54). -/
structure State where
  /-- `tick_count` (R32). -/
  tickCount : U32
  /-- `tch_oe` (R25). -/
  tchOe : Bool
  /-- `tch_state` (R26). -/
  tchState : CommutationState
  /-- `tch_speed` (R23). -/
  tchSpeed : U24
  /-- `tch_out` (R27). -/
  tchOut : Lines
  /-- `tmr_run` (R28). -/
  tmrRun : Bool
  /-- `tmr_delay` (R29). -/
  tmrDelay : U24
  /-- `tmr_acc` (R30). -/
  tmrAcc : U32
  /-- `tmr_elapsed` (R31). -/
  tmrElapsed : Bool
  /-- `arg[0..3]` (R22). -/
  arg : Vector U24 4
  /-- The needle contexts (R36); only those with an index below `NCTX` are ever touched (log entry 3). -/
  ctx : Vector NeedleContext 4
  /-- `ms_oe` (R49). -/
  msOe : Bool
  /-- `ms_pwr` (R49). -/
  msPwr : Bool
  /-- `rsp` (R50). -/
  rsp : U32
  /-- The output trace, oldest event first (R52). -/
  trace : List Event
  /-- The strobes still to come, oldest first. Not a register of the block: log entry 4. -/
  inputs : List Input
  deriving DecidableEq, Repr

/-- Reasons to stop with a fault: none. "The block raises no exception, no trap and no error signal"
(60_exceptions.md rule R220). -/
inductive Fault where
  deriving DecidableEq, Repr

/-- Reasons to refuse. -/
inductive Refusal where
  /-- No meaning for the command yet: raised by an arm of `exec` only; safe. No arm raises it now. -/
  | notModelled (mnemonic : String)
  deriving DecidableEq, Repr

/-- A needle context after reset (10_state.md rule R54). -/
def NeedleContext.resetWith (P : Params) : NeedleContext where
  init := false
  maxQ := 0
  maxSteps := 0
  inertia := 0
  periodMin := P.periodInit
  enable := false
  tgt := 0
  cur := 0
  cnt := 0
  period := P.periodInit
  dir := false

/-- The block with parameters `P` right after reset (10_state.md rule R54, 70_reset_and_hazards.md rule R260). -/
def State.resetWith (P : Params) : State where
  tickCount := 0
  tchOe := false
  tchState := .off
  tchSpeed := 0
  tchOut := 0
  tmrRun := false
  tmrDelay := 0
  tmrAcc := 0
  tmrElapsed := false
  arg := Vector.replicate 4 0
  ctx := Vector.replicate 4 (NeedleContext.resetWith P)
  msOe := false
  msPwr := false
  rsp := 0
  trace := []
  inputs := []

/-- The machine right after reset, with no strobe waiting. -/
def State.reset : State := State.resetWith Config.params

end Sys2Proof.Machine
end

