-- ==== Sys2Proof/Machine/Operands.lean ====
section
/-! DEFINITION. The arithmetic of operands and results: exact over the integers, narrowed once at the end (00_scope.md
rules R12, R13, R16). The operand forms themselves (zero- and sign-extended immediates, selectors; 30_encoding.md
rules R103 and R104) are read in Sys2Proof/Decode.lean. -/

namespace Sys2Proof.Machine

/-! ### Register reads -/

/-- `x[k]`, the operand staging register `arg[k]` (00_scope.md rule R13, 10_state.md rule R22). -/
def State.argAt (s : State) (k : Sel) : U24 := s.arg.get k

/-- Needle context `c` (10_state.md rule R36). -/
def State.needle (s : State) (c : Sel) : NeedleContext := s.ctx.get c

/-! ### Arithmetic -/

/-- `clamp(v, lo, hi)` (R13). -/
def clamp (v lo hi : Int) : Int := if v < lo then lo else if hi < v then hi else v

/-- `ceil(a / b)` for `b > 0` (R13). -/
def ceilDiv (a b : Nat) : Nat := (a + b - 1) / b

/-- `round(a * num / den)`, half up, for `den > 0`: `floor((2 * a * num + den) / (2 * den))`
(41_mano.md rules R165, R167). -/
def roundScale (a num den : Nat) : Nat := (2 * a * num + den) / (2 * den)

/-- The target step of a signed quantity on a scale `Q` to `S`, both clamps of 41_mano.md rule R165. -/
def targetStep (q : Int) (Q S : Nat) : Nat := (clamp (roundScale (clamp q 0 Q).toNat S Q) 0 S).toNat

/-- The remaining distance `abs(a - b)` of two step numbers (41_mano.md rule R172). -/
def distance (a b : U24) : U24 := BitVec.ofNat 24 ((a.toNat - b.toNat) + (b.toNat - a.toNat))

/-- `PeriodMin(w)` (41_mano.md rule R163). -/
def periodMin (P : Params) (w : U24) : U24 :=
  if w.toNat = 0 then P.periodInit
  else BitVec.ofNat 24 (clamp (ceilDiv 1000000 (w.toNat * P.tickUs)) 1 P.periodInit.toNat).toNat

/-- Store a number in a 32-bit field: the number itself where it fits, as the spec shows it does in every state of its
invariants, and a free value elsewhere (log entry 7). -/
def narrow32 (n : Nat) : U32 := if n < 2 ^ 32 then BitVec.ofNat 32 n else Config.misfit n

/-- `Delay(v) = MemRead(TABLE, clamp(v, 0, SPEED_MAX))` (40_tch.md rule R135, 20_memory.md rule R71). -/
def delay (P : Params) (v : U24) : U24 := P.table ⟨min v.toNat P.speedMax, by omega⟩

end Sys2Proof.Machine
end

