-- ==== Sys2Proof/Machine/Flags.lean ====
section
/-! DEFINITION. The one-bit fields of 10_state.md rule R35. There are no condition codes; each flag is written only by
the commands that rule names. -/

namespace Sys2Proof.Machine

def State.setTchOe (b : Bool) (s : State) : State := { s with tchOe := b }

def State.setTmrRun (b : Bool) (s : State) : State := { s with tmrRun := b }

def State.setMsOe (b : Bool) (s : State) : State := { s with msOe := b }

def State.setMsPwr (b : Bool) (s : State) : State := { s with msPwr := b }

def NeedleContext.setEnable (b : Bool) (x : NeedleContext) : NeedleContext := { x with enable := b }

/-- "any context is enabled", over the registered contexts (42_manos_system.md rule R202). -/
def anyEnabled (P : Params) (s : State) : Bool :=
  ([0, 1, 2, 3] : List Sel).any fun c => decide (c.val < P.nctx) && (s.needle c).init && (s.needle c).enable

end Sys2Proof.Machine
end

