-- ==== Sys2Proof/Machine/Ops.lean ====
section
/-! DEFINITION. The named operations over the fields of the state. There is no memory to read or write (20_memory.md
rules R70 and R72) and no exception to take or to return from (60_exceptions.md rules R220, R231, R232), so no operation
of those kinds stands here; reset is the one event that writes every field. -/

namespace Sys2Proof.Machine

/-! ### Ports and trace -/

def State.setInputs (l : List Input) (s : State) : State := { s with inputs := l }

def State.setRsp (v : U32) (s : State) : State := { s with rsp := v }

/-- `Emit(e)`: append to the output trace (10_state.md rule R52). -/
def State.emit (e : Event) (s : State) : State := { s with trace := s.trace ++ [e] }

/-- `rst` (70_reset_and_hazards.md rules R260, R262): every field at its reset value; what the outside does next is not
the block's to forget. -/
def State.applyReset (P : Params) (s : State) : State := (State.resetWith P).setInputs s.inputs

/-! ### Operand staging registers (10_state.md rule R22) -/

/-- `x[k] <- v` (00_scope.md rule R13). -/
def State.setArg (k : Sel) (v : U24) (s : State) : State := { s with arg := s.arg.set k v }

/-! ### Needle contexts -/

def State.setCtx (c : Sel) (x : NeedleContext) (s : State) : State := { s with ctx := s.ctx.set c x }

/-- A command on context `c`: a no-op unless the index is below `NCTX` (30_encoding.md rule R108), which outranks every
other test (60_exceptions.md rule R230). -/
def State.onContext (P : Params) (c : Sel) (s : State) (f : NeedleContext → State) : State :=
  if c.val < P.nctx then f (s.needle c) else s

/-- A command on a registered context: a no-op also while `n_init[c] = 0` (10_state.md rule R37). -/
def State.onRegistered (P : Params) (c : Sel) (s : State) (f : NeedleContext → State) : State :=
  s.onContext P c fun x => if x.init then f x else s

/-! ### Commutation Drive -/

def State.setTchSpeed (v : U24) (s : State) : State := { s with tchSpeed := v }

def State.setTchOut (o : Lines) (s : State) : State := { s with tchOut := o }

/-- Load the delay timer: the delay, a zeroed accumulator, a cleared elapsed flag (40_tch.md rule R134). -/
def State.loadTimer (d : U24) (s : State) : State :=
  { s with tmrDelay := d, tmrAcc := 0, tmrElapsed := false }

/-- Enter OFF: all six lines de-asserted (40_tch.md rule R134). -/
def State.enterOff (s : State) : State := { s with tchState := .off, tchOut := 0 }

/-- Enter sector `k` with its pattern (40_tch.md rule R134). -/
def State.enterSector (P : Params) (k : Sector) (s : State) : State :=
  { s with tchState := .sector k, tchOut := P.pattern k }

/-- `Next(s)` (40_tch.md rule R138): STEP6 wraps to STEP1. -/
def nextSector : Sector → Sector
  | .step1 => .step2
  | .step2 => .step3
  | .step3 => .step4
  | .step4 => .step5
  | .step5 => .step6
  | .step6 => .step1

/-- `PAT(s)` (10_state.md rule R27); the spec gives none for the unrecognized state (log entry 9). -/
def pat (P : Params) : CommutationState → Option Lines
  | .off => some 0
  | .sector k => some (P.pattern k)
  | .unrecognized => none

/-- The three-bit code of a CommutationState (10_state.md rule R26). -/
def stateCode : CommutationState → BitVec 3
  | .off => 0
  | .sector .step1 => 1
  | .sector .step2 => 2
  | .sector .step3 => 3
  | .sector .step4 => 4
  | .sector .step5 => 5
  | .sector .step6 => 6
  | .unrecognized => 7

end Sys2Proof.Machine
end

