-- ==== Sys2Proof/Machine/Mano.lean ====
section
/-! DEFINITION. The Needle Position Controller commands `LDARG`, `NINIT`, `NSETT`, `NGETP`, `NSTART`, `NSTOP`, `NTASK`
(41_mano.md). -/

namespace Sys2Proof.Machine

/-- `NINIT c` (rules R162, R163). -/
def needleInit (P : Params) (c : Sel) (s : State) : State :=
  s.onContext P c fun _ =>
    let start : U24 := if (P.startStep c).toNat ≤ (s.argAt 1).toNat then P.startStep c else s.argAt 1
    s.setCtx c
      { init := true
        maxQ := s.argAt 0
        maxSteps := s.argAt 1
        inertia := s.argAt 2
        periodMin := periodMin P (s.argAt 3)
        enable := false
        tgt := start
        cur := start
        cnt := 0
        period := P.periodInit
        dir := false }

/-- `NSETT c, q` (rule R165). -/
def setTarget (P : Params) (c : Sel) (q : Int) (s : State) : State :=
  s.onRegistered P c fun x =>
    if x.maxQ.toNat = 0 then s
    else s.setCtx c { x with tgt := BitVec.ofNat 24 (targetStep q x.maxQ.toNat x.maxSteps.toNat) }

/-- The quantity `NGETP` reports for a context (rule R167). -/
def reading (x : NeedleContext) : U32 :=
  if !x.init || decide (x.maxSteps.toNat = 0) then 0
  else narrow32 (roundScale x.cur.toNat x.maxQ.toNat x.maxSteps.toNat)

/-- `NGETP c` (rule R167). -/
def readQuantity (P : Params) (c : Sel) (s : State) : State :=
  s.onContext P c fun x => s.setRsp (reading x)

/-- `NSTART c` and `NSTOP c`: write the enable flag of a registered context (rules R169, R170). -/
def setNeedleEnable (P : Params) (c : Sel) (b : Bool) (s : State) : State :=
  s.onRegistered P c fun x => s.setCtx c (x.setEnable b)

/-- The context after one step toward its target (the inner branch of rule R172). -/
def NeedleContext.stepped (P : Params) (x : NeedleContext) : NeedleContext :=
  let up := decide (x.cur.toNat < x.tgt.toNat)
  let cur' : U24 := if up then x.cur + 1 else x.cur - 1
  { x with
    cnt := 0
    dir := up
    cur := cur'
    period := P.ramp x.period (distance x.tgt cur') x.inertia x.periodMin P.periodInit }

/-- One step of needle `c`: the direction level, then the pulse that carries it (rules R172, R173). -/
def stepNeedle (P : Params) (c : Sel) (x : NeedleContext) (s : State) : State :=
  (s.setCtx c (x.stepped P)).emit (.stepPulse c (x.stepped P).dir)

/-- `NTASK c` (rules R172 to R177): disabled outranks idle, which outranks counting (60_exceptions.md rule R230). -/
def needleTask (P : Params) (c : Sel) (s : State) : State :=
  s.onRegistered P c fun x =>
    if !x.enable then s
    else if x.cur = x.tgt then s
    else if x.cnt.toNat + 1 < x.period.toNat then s.setCtx c { x with cnt := x.cnt + 1 }
    else stepNeedle P c x s

/-- `LDARG ak, v` (rule R160). -/
def execLdarg (k : Sel) (v : U24) (s : State) : Host.Outcome State Fault Refusal := .next (s.setArg k v)

/-- `NINIT c` (rules R162 to R164). -/
def execNinit (c : Sel) (s : State) : Host.Outcome State Fault Refusal := .next (needleInit Config.params c s)

/-- `NSETT c, q` (rule R165). -/
def execNsett (c : Sel) (q : Int) (s : State) : Host.Outcome State Fault Refusal :=
  .next (setTarget Config.params c q s)

/-- `NGETP c` (rule R167). -/
def execNgetp (c : Sel) (s : State) : Host.Outcome State Fault Refusal := .next (readQuantity Config.params c s)

/-- `NSTART c` (rule R169). -/
def execNstart (c : Sel) (s : State) : Host.Outcome State Fault Refusal :=
  .next (setNeedleEnable Config.params c true s)

/-- `NSTOP c` (rule R170). -/
def execNstop (c : Sel) (s : State) : Host.Outcome State Fault Refusal :=
  .next (setNeedleEnable Config.params c false s)

/-- `NTASK c` (rules R172 to R175). -/
def execNtask (c : Sel) (s : State) : Host.Outcome State Fault Refusal := .next (needleTask Config.params c s)

end Sys2Proof.Machine
end

