-- ==== Sys2Proof/Machine/Manos.lean ====
section
/-! DEFINITION. The power aggregation and system commands `MSINIT`, `MSPWR`, `NOP` (42_manos_system.md). -/

namespace Sys2Proof.Machine

/-- `MSINIT` (rule R201). -/
def powerInit (s : State) : State := (s.setMsOe true).setMsPwr false

/-- `MSPWR` (rule R202). -/
def managePower (P : Params) (s : State) : State := s.setMsPwr (anyEnabled P s)

/-- `MSINIT` (rule R201). -/
def execMsinit (s : State) : Host.Outcome State Fault Refusal := .next (powerInit s)

/-- `MSPWR` (rule R202). -/
def execMspwr (s : State) : Host.Outcome State Fault Refusal := .next (managePower Config.params s)

/-- `NOP` (rule R204; a no-op is 00_scope.md rule R14). -/
def execNop (s : State) : Host.Outcome State Fault Refusal := .next s

end Sys2Proof.Machine
end

