-- ==== Sys2Proof/Machine/Tch.lean ====
section
/-! DEFINITION. The Commutation Drive commands `SPDW`, `TINIT`, `TTASK` (40_tch.md). -/

namespace Sys2Proof.Machine

/-- `TINIT` (rule R132). -/
def tchInit (s : State) : State :=
  (((s.setTchOe true).enterOff.setTchSpeed 0).setTmrRun false).loadTimer 0

/-- `TTASK` (rules R134 to R139): one sample of the speed, at most one transition. -/
def tchTask (P : Params) (s : State) : State :=
  match s.tchState with
  | .off =>
    if P.speedMin ≤ s.tchSpeed.toNat then
      ((s.setTmrRun true).loadTimer (delay P s.tchSpeed)).enterSector P .step1
    else s.setTchOut 0
  | .sector k =>
    if s.tchSpeed.toNat < P.speedMin then (s.setTmrRun false).enterOff
    else if s.tmrElapsed then (s.loadTimer (delay P s.tchSpeed)).enterSector P (nextSector k)
    else s.setTchOut (P.pattern k)
  | .unrecognized => s

/-- `SPDW v` (rule R131). -/
def execSpdw (v : U24) (s : State) : Host.Outcome State Fault Refusal := .next (s.setTchSpeed v)

/-- `TINIT` (rule R132). -/
def execTinit (s : State) : Host.Outcome State Fault Refusal := .next (tchInit s)

/-- `TTASK` (rules R133 to R139). -/
def execTtask (s : State) : Host.Outcome State Fault Refusal := .next (tchTask Config.params s)

end Sys2Proof.Machine
end

