-- ==== Sys2Proof/Machine/Dispatch.lean ====
section
/-! DEFINITION. What each command does: one arm per constructor of Instr. -/

namespace Sys2Proof.Machine

def exec (i : Instr) (s : State) : Host.Outcome State Fault Refusal :=
  match i with
  | .nop => Sys2Proof.Machine.execNop s
  | .tinit => Sys2Proof.Machine.execTinit s
  | .ttask => Sys2Proof.Machine.execTtask s
  | .spdw v => Sys2Proof.Machine.execSpdw v s
  | .ldarg k v => Sys2Proof.Machine.execLdarg k v s
  | .ninit c => Sys2Proof.Machine.execNinit c s
  | .nsett c q => Sys2Proof.Machine.execNsett c q s
  | .ngetp c => Sys2Proof.Machine.execNgetp c s
  | .nstart c => Sys2Proof.Machine.execNstart c s
  | .nstop c => Sys2Proof.Machine.execNstop c s
  | .ntask c => Sys2Proof.Machine.execNtask c s
  | .msinit => Sys2Proof.Machine.execMsinit s
  | .mspwr => Sys2Proof.Machine.execMspwr s

end Sys2Proof.Machine
end

