-- ==== Sys2Proof/Machine/Tick.lean ====
section
/-! DEFINITION. The tick step (60_exceptions.md rules R224 to R227). -/

namespace Sys2Proof.Machine

/-- Part 1 (rule R225): the free-running count, modulo 2^32. -/
def State.countTick (s : State) : State := { s with tickCount := s.tickCount + 1 }

/-- Part 2 (rule R226): the one-shot delay timer. -/
def State.advanceTimer (P : Params) (s : State) : State :=
  if s.tmrRun && !s.tmrElapsed then
    { s with
      tmrAcc := narrow32 (s.tmrAcc.toNat + P.tickUs)
      tmrElapsed := decide (s.tmrDelay.toNat ≤ s.tmrAcc.toNat + P.tickUs) }
  else s

/-- One tick event (rules R225, R226). -/
def tickEvent (P : Params) (s : State) : State := s.countTick.advanceTimer P

end Sys2Proof.Machine
end

