-- ==== Sys2Proof/Machine/Port.lean ====
section
/-! DEFINITION. What each strobe on the input ports does (00_scope.md rules R10, R11). -/

namespace Sys2Proof.Machine

/-- A word on the command port: the command it decodes to, or nothing at all where its opcode is reserved
(30_encoding.md rules R106, R109; 42_manos_system.md rule R205; log entry 6). -/
def runWord (w : CmdWord) (s : State) : Host.Outcome State Fault Refusal :=
  match decode w with
  | .ok i => exec i s
  | .error _ => .next s

/-- One atomic step of whichever agent strobes, in a state from which that strobe has been taken. With tick and
command in one cycle the tick is this step and the command the next one (60_exceptions.md rule R229). -/
def acceptInput (x : Input) (s : State) : Host.Outcome State Fault Refusal :=
  match x with
  | .rst => .next (s.applyReset Config.params)
  | .tick => .next (tickEvent Config.params s)
  | .cmd w => runWord w s
  | .tickCmd w => .next (tickEvent Config.params (s.setInputs (.cmd w :: s.inputs)))

/-- Place a command word so that it is the next strobe taken. -/
def State.pushCommand (w : CmdWord) (s : State) : State := s.setInputs (.cmd w :: s.inputs)

end Sys2Proof.Machine
end

