-- ==== Sys2Proof/Machine/Step.lean ====
section
/-! DEFINITION. One step of the block: the oldest waiting strobe, taken and acted on. -/

namespace Sys2Proof.Machine

/-- One atomic step (00_scope.md rule R10). With no strobe waiting the block waits
(70_reset_and_hazards.md rule R261; log entry 4). -/
def step (s : State) : Host.Outcome State Fault Refusal :=
  match s.inputs with
  | [] => .next s
  | x :: rest => acceptInput x (s.setInputs rest)

/-- The command whose bits are the low `nbits` bits of `w`, strobed next on the command port. -/
def State.withFetchWord (s : State) (nbits w : Nat) : State := s.pushCommand (BitVec.ofNat 32 (w % 2 ^ nbits))

end Sys2Proof.Machine
end

