-- ==== Sys2Proof/Machine/Pins.lean ====
section
/-! DEFINITION. The output pins of 00_scope.md rule R11 as the state gives them; `none` is a pin the block does not
drive, whose level outside is anything (93_implementation_defined.md U13, log entry 10). -/

namespace Sys2Proof.Machine

/-- `tch_pin[5:0]` (10_state.md rule R25). -/
def State.tchPins (s : State) : Option Lines := if s.tchOe then some s.tchOut else none

/-- `dir[c]` (10_state.md rules R37, R47). -/
def State.dirPin (P : Params) (c : Sel) (s : State) : Option Bool :=
  if c.val < P.nctx ∧ (s.needle c).init = true then some (s.needle c).dir else none

/-- The level of `dir[c]` under the pulse, where the event is a pulse on `step[c]` (10_state.md rule R52). -/
def Event.pulseOn (c : Sel) : Event → Option Bool
  | .stepPulse c' d => if c' = c then some d else none

/-- The pulses on `step[c]` since reset, oldest first, each as the level of `dir[c]` it came at (10_state.md rule R52).
Their width and the time between them are not modelled (log entry 11). -/
def State.stepPulses (c : Sel) (s : State) : List Bool := s.trace.filterMap (Event.pulseOn c)

/-- `step[c]`, driven exactly when `dir[c]` is (00_scope.md rule R11, 10_state.md rule R37): the pulses it has carried. -/
def State.stepPin (P : Params) (c : Sel) (s : State) : Option (List Bool) :=
  if c.val < P.nctx ∧ (s.needle c).init = true then some (s.stepPulses c) else none

/-- `pwr` (10_state.md rule R49). -/
def State.pwrPin (s : State) : Option Bool := if s.msOe then some s.msPwr else none

end Sys2Proof.Machine
end

