-- ==== Sys2Proof/Safety.lean ====
section
/-! DEFINITION. The terms the claims are stated in: the invariants of 10_state.md rules R33 and R48, runs of several
steps, and which drive or context a command belongs to. -/

namespace Sys2Proof.Machine

/-- What `n` steps make of a state, stopping at the first fault or refusal. -/
def steps : Nat → State → Host.Outcome State Fault Refusal
  | 0, s => .next s
  | n + 1, s =>
    match step s with
    | .next t => steps n t
    | .fault r => .fault r
    | .refused r => .refused r

/-- One tick and then one `TTASK`, `n` times: the loop of 40_tch.md rule R140. -/
def tickThenTask : Nat → List Input
  | 0 => []
  | n + 1 => .tick :: .cmd 0x08000000 :: tickThenTask n

/-- The TCH invariants (a) to (f) of 10_state.md rule R33, with two bounds on the accumulator. The bounds say what
rule R30 is after ("32 bits never overflow") in the form that is true also of a zero delay (log entry 12). -/
structure TchInvariant (P : Params) (s : State) : Prop where
  /-- (a) -/
  recognized : s.tchState ≠ .unrecognized
  /-- (b) -/
  patterned : pat P s.tchState = some s.tchOut
  /-- (c) -/
  running : s.tmrRun = true ↔ ∃ k, s.tchState = .sector k
  /-- (d) -/
  loaded : s.tmrRun = true → ∃ i : Fin (P.speedMax + 1), P.speedMin ≤ i.val ∧ s.tmrDelay = P.table i
  /-- (e) -/
  elapsed : s.tmrElapsed = true → s.tmrDelay.toNat ≤ s.tmrAcc.toNat
  /-- (f) -/
  whole : P.tickUs ∣ s.tmrAcc.toNat
  /-- While the timer runs towards its delay the accumulator is below it, or still 0. -/
  pending : s.tmrRun = true → s.tmrElapsed = false → s.tmrAcc.toNat < max s.tmrDelay.toNat 1
  /-- The accumulator overshoots its delay by less than one tick. -/
  bounded : s.tmrAcc.toNat < max s.tmrDelay.toNat 1 + P.tickUs

/-- The MANO invariants (a) to (f) of 10_state.md rule R48 for one context. -/
structure NeedleInvariant (P : Params) (x : NeedleContext) : Prop where
  /-- (a) -/
  curInScale : x.cur.toNat ≤ x.maxSteps.toNat
  /-- (b) -/
  tgtInScale : x.tgt.toNat ≤ x.maxSteps.toNat
  /-- (c) -/
  periodMinPos : 1 ≤ x.periodMin.toNat
  /-- (c) -/
  periodMinLe : x.periodMin.toNat ≤ x.period.toNat
  /-- (c) -/
  periodLe : x.period.toNat ≤ P.periodInit.toNat
  /-- (d) -/
  counting : x.cnt.toNat < x.period.toNat
  /-- (e) -/
  enabledRegistered : x.enable = true → x.init = true
  /-- (f) -/
  unregistered : x.init = false → x = NeedleContext.resetWith P

/-- The MANO invariants of rule R48 for every context of the block. -/
def ManoInvariant (P : Params) (s : State) : Prop := ∀ c : Sel, c.val < P.nctx → NeedleInvariant P (s.needle c)

/-- The remaining distance of a needle (00_scope.md glossary). -/
def NeedleContext.remaining (x : NeedleContext) : Nat := ((x.tgt.toNat : Int) - (x.cur.toNat : Int)).natAbs

/-- The context index of a command, where it has one (30_encoding.md rule R104). -/
def contextOf : Instr → Option Sel
  | .ninit c => some c
  | .nsett c _ => some c
  | .ngetp c => some c
  | .nstart c => some c
  | .nstop c => some c
  | .ntask c => some c
  | .nop => none
  | .tinit => none
  | .ttask => none
  | .spdw _ => none
  | .ldarg _ _ => none
  | .msinit => none
  | .mspwr => none

/-- The TCH commands (40_tch.md rule R130). -/
def isTchCommand : Instr → Bool
  | .spdw _ => true
  | .tinit => true
  | .ttask => true
  | .nop => false
  | .ldarg _ _ => false
  | .ninit _ => false
  | .nsett _ _ => false
  | .ngetp _ => false
  | .nstart _ => false
  | .nstop _ => false
  | .ntask _ => false
  | .msinit => false
  | .mspwr => false

/-- The MANO commands (41_mano.md rule R161). -/
def isManoCommand : Instr → Bool
  | .ldarg _ _ => true
  | .ninit _ => true
  | .nsett _ _ => true
  | .ngetp _ => true
  | .nstart _ => true
  | .nstop _ => true
  | .ntask _ => true
  | .nop => false
  | .tinit => false
  | .ttask => false
  | .spdw _ => false
  | .msinit => false
  | .mspwr => false

end Sys2Proof.Machine
end

