-- ==== Sys2Proof/Certificates/Slice0/Obligations.lean ====
section
/-! DEFINITION. The statements for the provers. `Config.params` is the opaque parameter set of the block, so each
statement holds for every admissible choice of the parameters of 00_scope.md rule R8. -/

open Sys2Proof Sys2Proof.Machine

/-! ### Reset and the input ports -/

/-- R260 with the table of R54: after power-up, and after the reset strobe in any state, every field has its reset
value, the trace is empty and no pin is driven. -/
def Obligations.ResetPutsEveryFieldAtItsValue : Prop :=
  ∀ t : State, (t = State.reset ∨ ∃ s rest, s.inputs = .rst :: rest ∧ step s = .next t) →
    t.tickCount = 0 ∧ t.tchOe = false ∧ stateCode t.tchState = 0 ∧ t.tchSpeed = 0 ∧ t.tchOut = 0 ∧ t.tmrRun = false ∧
    t.tmrDelay = 0 ∧ t.tmrAcc = 0 ∧ t.tmrElapsed = false ∧ (∀ k, t.argAt k = 0) ∧ t.msOe = false ∧ t.msPwr = false ∧
    t.rsp = 0 ∧ t.trace = [] ∧ t.tchPins = none ∧ t.pwrPin = none ∧
    ∀ c : Sel, c.val < Config.params.nctx →
      (t.needle c).init = false ∧ (t.needle c).maxQ = 0 ∧ (t.needle c).maxSteps = 0 ∧ (t.needle c).inertia = 0 ∧
      (t.needle c).periodMin = Config.params.periodInit ∧ (t.needle c).enable = false ∧ (t.needle c).tgt = 0 ∧
      (t.needle c).cur = 0 ∧ (t.needle c).cnt = 0 ∧ (t.needle c).period = Config.params.periodInit ∧
      (t.needle c).dir = false ∧ t.dirPin Config.params c = none ∧ t.stepPin Config.params c = none

/-- R220: no command and no step stops the block. -/
def Obligations.EveryCommandAndStepCompletes : Prop :=
  (∀ (i : Instr) (s : State), ∃ t, exec i s = .next t) ∧ ∀ s : State, ∃ t, step s = .next t

/-- A waiting command word that decodes to `i` makes the step `exec i`, on the state from which just that strobe has
been taken (R10, R106). -/
def Obligations.StepRunsTheDecodedCommand : Prop :=
  ∀ (s : State) (w : CmdWord) (rest : List Input) (i : Instr),
    s.inputs = .cmd w :: rest → decode w = .ok i → step s = exec i { s with inputs := rest }

/-- R109, R205: a word with one of the fifty reserved opcodes changes nothing. -/
def Obligations.ReservedOpcodeDoesNothing : Prop :=
  ∀ (s : State) (w : CmdWord) (rest : List Input), s.inputs = .cmd w :: rest →
    ((0x04 ≤ (w.extractLsb' 26 6).toNat ∧ (w.extractLsb' 26 6).toNat ≤ 0x07) ∨ (w.extractLsb' 26 6).toNat = 0x0F ∨
      0x12 ≤ (w.extractLsb' 26 6).toNat) →
    step s = .next { s with inputs := rest }

/-- R229: tick and command strobed in one clock cycle act as the tick and then the command. -/
def Obligations.SimultaneousTickActsBeforeCommand : Prop :=
  ∀ (s : State) (w : CmdWord) (rest : List Input), s.inputs = .tickCmd w :: rest →
    steps 2 s = steps 2 { s with inputs := .tick :: .cmd w :: rest }

/-- With no strobe waiting a step changes nothing: R261 says the block waits. That a step of the model stands for the
waiting, and that a reset strobe leaves the strobes after it waiting, is the model's choice (log entry 4). -/
def Obligations.WaitingBlockHoldsItsState : Prop :=
  ∀ s : State, (s.inputs = [] → step s = .next s) ∧
    ∀ rest, s.inputs = .rst :: rest → ∃ t, step s = .next t ∧ t.inputs = rest

/-! ### Encoding -/

/-- Decoding undoes encoding, on the command port and in a stored command stream (R101 to R106, R74). -/
def Obligations.DecodeUndoesEncode : Prop :=
  ∀ i : Instr, i.wellFormed = true →
    decode (encode i) = .ok i ∧ ∀ rest, decodeBytes (bytesOfWord (encode i) ++ rest) = .ok (i, rest)

/-- R106, R109: a word is reserved exactly when its opcode is one of the fifty; every other word is one well-formed
command, the one of its opcode. -/
def Obligations.DecodingIsTotal : Prop :=
  ∀ w : CmdWord,
    let o := (w.extractLsb' 26 6).toNat
    if (0x04 ≤ o ∧ o ≤ 0x07) ∨ o = 0x0F ∨ 0x12 ≤ o then decode w = .error (.reservedOpcode (w.extractLsb' 26 6))
    else ∃ i, decode w = .ok i ∧ i.wellFormed = true ∧ i.opcode = w.extractLsb' 26 6

/-- R110: the bits a command's format does not use change nothing about decoding, and the assembler writes them as 0. -/
def Obligations.ReservedFieldsAreIgnored : Prop :=
  ∀ (w : CmdWord) (i : Instr), decode w = .ok i →
    encode i = w &&& usedBits i ∧ ∀ w' : CmdWord, w' &&& usedBits i = w &&& usedBits i → decode w' = .ok i

/-- R103, R104: the operands of `SPDW`, `LDARG` and `NSETT` from the bits of the word; only `NSETT` extends the sign. -/
def Obligations.ImmediatesAndSelectorsAreAssembled : Prop :=
  ∀ w : CmdWord,
    (w.extractLsb' 26 6 = 0x03 → decode w = .ok (.spdw (w.extractLsb' 0 24))) ∧
    (w.extractLsb' 26 6 = 0x08 → ∃ k : Sel, k.val = (w.extractLsb' 24 2).toNat ∧
      decode w = .ok (.ldarg k (w.extractLsb' 0 24))) ∧
    (w.extractLsb' 26 6 = 0x0A → ∃ c : Sel, c.val = (w.extractLsb' 24 2).toNat ∧
      decode w = .ok (.nsett c (w.extractLsb' 0 24).toInt))

/-- Every word of 95_test_vectors.md section 2, E1 to E26 in order, then the most negative immediate of M16, as numbers
of the opcode table; and E4 as stored bytes. -/
def Obligations.SpecWordsDecode : Prop :=
  decodeTableWord 32 0x00000000 = some .nop ∧ decodeTableWord 32 0x04000000 = some .tinit ∧
  decodeTableWord 32 0x08000000 = some .ttask ∧ decodeTableWord 32 0x0C00003C = some (.spdw 60) ∧
  decodeTableWord 32 0x0C000000 = some (.spdw 0) ∧ decodeTableWord 32 0x0CFFFFFF = some (.spdw 16777215) ∧
  decodeTableWord 32 0x2000000A = some (.ldarg 0 10) ∧ decodeTableWord 32 0x21000014 = some (.ldarg 1 20) ∧
  decodeTableWord 32 0x22000003 = some (.ldarg 2 3) ∧ decodeTableWord 32 0x230009C4 = some (.ldarg 3 2500) ∧
  decodeTableWord 32 0x24000000 = some (.ninit 0) ∧ decodeTableWord 32 0x25000000 = some (.ninit 1) ∧
  decodeTableWord 32 0x2800000A = some (.nsett 0 10) ∧ decodeTableWord 32 0x28FFFFFD = some (.nsett 0 (-3)) ∧
  decodeTableWord 32 0x29FFFFFF = some (.nsett 1 (-1)) ∧ decodeTableWord 32 0x280003E8 = some (.nsett 0 1000) ∧
  decodeTableWord 32 0x2C000000 = some (.ngetp 0) ∧ decodeTableWord 32 0x2D000000 = some (.ngetp 1) ∧
  decodeTableWord 32 0x30000000 = some (.nstart 0) ∧ decodeTableWord 32 0x31000000 = some (.nstart 1) ∧
  decodeTableWord 32 0x34000000 = some (.nstop 0) ∧ decodeTableWord 32 0x35000000 = some (.nstop 1) ∧
  decodeTableWord 32 0x38000000 = some (.ntask 0) ∧ decodeTableWord 32 0x39000000 = some (.ntask 1) ∧
  decodeTableWord 32 0x40000000 = some .msinit ∧ decodeTableWord 32 0x44000000 = some .mspwr ∧
  decodeTableWord 32 0x0BFFFFFF = some .ttask ∧ decodeTableWord 32 0x10000000 = none ∧
  decodeTableWord 32 0xFFFFFFFF = none ∧ decodeTableWord 32 0x2E000000 = some (.ngetp 2) ∧
  decodeTableWord 32 0x03FFFFFF = some .nop ∧ decodeTableWord 32 0x29800000 = some (.nsett 1 (-8388608)) ∧
  decodeBytes [0x3C, 0x00, 0x00, 0x0C] = .ok (.spdw 60, [])

/-! ### The tick and the delay timer -/

/-- R225, R226: what one tick does, and that it does nothing else (R224). A sum that does not fit the 32 bits, which
no state of the invariants gives, is left open (log entry 7). -/
def Obligations.TickAdvancesCountAndTimer : Prop :=
  ∀ (s : State) (rest : List Input), s.inputs = .tick :: rest →
    ∃ t, step s = .next t ∧ t.tickCount.toNat = (s.tickCount.toNat + 1) % 2 ^ 32 ∧
      (if s.tmrRun = true ∧ s.tmrElapsed = false then
        (s.tmrAcc.toNat + Config.params.tickUs < 2 ^ 32 → t.tmrAcc.toNat = s.tmrAcc.toNat + Config.params.tickUs) ∧
        (t.tmrElapsed = true ↔ s.tmrDelay.toNat ≤ s.tmrAcc.toNat + Config.params.tickUs)
      else t.tmrAcc = s.tmrAcc ∧ t.tmrElapsed = s.tmrElapsed) ∧
      t = { s with tickCount := t.tickCount, tmrAcc := t.tmrAcc, tmrElapsed := t.tmrElapsed, inputs := rest }

/-- R226: after a load the elapsed flag is set by tick number max(1, ceil(D / TICK_US)), even for D = 0, and not
before. -/
def Obligations.TimerElapsesAtItsTick : Prop :=
  ∀ (s : State) (n : Nat) (rest : List Input),
    s.tmrRun = true → s.tmrElapsed = false → s.tmrAcc = 0 → s.inputs = List.replicate n .tick ++ rest →
    ∃ t, steps n s = .next t ∧ t.inputs = rest ∧
      (t.tmrElapsed = true ↔ max 1 ⌈(s.tmrDelay.toNat : ℚ) / (Config.params.tickUs : ℚ)⌉₊ ≤ n) ∧
      t.tickCount = s.tickCount + BitVec.ofNat 32 n

/-- R140: with one `TTASK` after every tick, a sector entered with delay D lasts exactly max(1, ceil(D / TICK_US))
ticks, and then the next sector is loaded with the delay of the speed now sampled. -/
def Obligations.DwellIsExactInTicks : Prop :=
  ∀ (s : State) (k : Sector) (n : Nat) (rest : List Input),
    s.tchState = .sector k → s.tmrRun = true → s.tmrElapsed = false → s.tmrAcc = 0 →
    Config.params.speedMin ≤ s.tchSpeed.toNat → s.inputs = tickThenTask n ++ rest →
    let N := max 1 ⌈(s.tmrDelay.toNat : ℚ) / (Config.params.tickUs : ℚ)⌉₊
    (n < N → ∃ t, steps (2 * n) s = .next t ∧ t.tchState = .sector k ∧ t.tmrDelay = s.tmrDelay ∧ t.inputs = rest) ∧
    (n = N → ∃ t, steps (2 * n) s = .next t ∧ t.tchState = .sector (nextSector k) ∧
      t.tchOut = Config.params.pattern (nextSector k) ∧ t.tmrDelay = delay Config.params s.tchSpeed ∧ t.tmrAcc = 0 ∧
      t.tmrElapsed = false ∧ t.inputs = rest)

/-! ### Commutation Drive -/

/-- R131: `SPDW`, its word, and that it stores the speed as it is and changes nothing else. -/
def Obligations.SpdwStoresTheSpeed : Prop :=
  (∀ w : CmdWord, w.extractLsb' 26 6 = 0x03 → decode w = .ok (.spdw (w.extractLsb' 0 24))) ∧
  ∀ (v : U24) (s : State), exec (.spdw v) s = .next { s with tchSpeed := v }

/-- R132: `TINIT`, its word, and its effect whatever the drive was doing, and again. -/
def Obligations.TinitInitialisesTheDrive : Prop :=
  (∀ w : CmdWord, w.extractLsb' 26 6 = 0x01 → decode w = .ok .tinit) ∧
  ∀ s : State, ∃ t, exec .tinit s = .next t ∧
    t = { s with
      tchOe := true, tchState := .off, tchOut := 0, tchSpeed := 0, tmrRun := false, tmrDelay := 0, tmrAcc := 0,
      tmrElapsed := false } ∧
    exec .tinit t = .next t

/-- R133, R134, R135, R139: `TTASK`, its word, and its effect. In OFF it engages exactly at or above the threshold; in
a sector the stop comes first, then the advance on an elapsed timer, else the dwell; a load takes the clamped table
entry; in the unrecognized state nothing happens. -/
def Obligations.TtaskFollowsItsPseudocode : Prop :=
  (∀ w : CmdWord, w.extractLsb' 26 6 = 0x02 → decode w = .ok .ttask) ∧
  ∀ s : State, ∃ t, exec .ttask s = .next t ∧
    (stateCode s.tchState = 0 →
      if h : Config.params.speedMin ≤ s.tchSpeed.toNat then
        t = { s with
          tmrRun := true, tmrDelay := Config.params.table ⟨min s.tchSpeed.toNat Config.params.speedMax, by omega⟩,
          tmrAcc := 0, tmrElapsed := false, tchState := .sector .step1, tchOut := Config.params.pattern .step1 }
      else t = { s with tchOut := 0 }) ∧
    (∀ k : Sector, s.tchState = .sector k →
      if s.tchSpeed.toNat < Config.params.speedMin then
        t = { s with tmrRun := false, tchState := .off, tchOut := 0 }
      else if s.tmrElapsed = true then
        ∃ k' : Sector, stateCode (.sector k') = (if stateCode (.sector k) = 6 then 1 else stateCode (.sector k) + 1) ∧
          t = { s with
            tmrDelay := Config.params.table ⟨min s.tchSpeed.toNat Config.params.speedMax, by omega⟩,
            tmrAcc := 0, tmrElapsed := false, tchState := .sector k', tchOut := Config.params.pattern k' }
      else t = { s with tchOut := Config.params.pattern k }) ∧
    (stateCode s.tchState = 7 → t = s)

/-- R136: in the unrecognized state `TTASK` is a no-op, whatever the speed and the timer; only `TINIT` or reset leaves
that state, and no step enters it. -/
def Obligations.UnrecognizedStateIsInert : Prop :=
  ∀ s t : State,
    (stateCode s.tchState = 7 → exec .ttask s = .next s) ∧
    (stateCode s.tchState = 7 → step s = .next t → stateCode t.tchState ≠ 7 →
      (∃ rest, s.inputs = .rst :: rest) ∨ ∃ w rest, s.inputs = .cmd w :: rest ∧ decode w = .ok .tinit) ∧
    (stateCode s.tchState ≠ 7 → step s = .next t → stateCode t.tchState ≠ 7)

/-- R142: from each of the seven recognized states one `TTASK` below the threshold ends in OFF with all lines
de-asserted. -/
def Obligations.StopWithinOneInvocation : Prop :=
  ∀ s : State, (stateCode s.tchState).toNat ≤ 6 → s.tchSpeed.toNat < Config.params.speedMin →
    ∃ t, exec .ttask s = .next t ∧ t.tchState = .off ∧ t.tchOut = 0

/-- R138: every way a step changes the commutation state, and on what condition. -/
def Obligations.CommutationTransitions : Prop :=
  ∀ s t : State, step s = .next t → t.tchState ≠ s.tchState →
    (stateCode t.tchState = 0 ∧ ∃ rest, s.inputs = .rst :: rest) ∨
    ∃ w rest, s.inputs = .cmd w :: rest ∧
      ((decode w = .ok .tinit ∧ stateCode t.tchState = 0) ∨
      (decode w = .ok .ttask ∧ (
        (stateCode s.tchState = 0 ∧ stateCode t.tchState = 1 ∧ Config.params.speedMin ≤ s.tchSpeed.toNat) ∨
        (stateCode s.tchState ∈ [1, 2, 3, 4, 5, 6] ∧ stateCode t.tchState = 0 ∧
          s.tchSpeed.toNat < Config.params.speedMin) ∨
        (stateCode s.tchState ∈ [1, 2, 3, 4, 5] ∧ stateCode t.tchState = stateCode s.tchState + 1 ∧
          s.tmrElapsed = true ∧ Config.params.speedMin ≤ s.tchSpeed.toNat) ∨
        (stateCode s.tchState = 6 ∧ stateCode t.tchState = 1 ∧
          s.tmrElapsed = true ∧ Config.params.speedMin ≤ s.tchSpeed.toNat))))

/-- R270: a new speed in mid-sector, at or above the threshold, changes nothing but the stored speed; the dwell in
progress goes on. -/
def Obligations.SpeedChangeKeepsTheRunningDwell : Prop :=
  ∀ (s : State) (k : Sector) (v : U24), TchInvariant Config.params s → s.tchState = .sector k →
    s.tmrElapsed = false → Config.params.speedMin ≤ v.toNat →
    ∃ t, exec (.spdw v) s = .next t ∧ exec .ttask t = .next { s with tchSpeed := v }

/-- R143: the six sectors come round in six advances, and no two of the six outputs on the way are alike. -/
def Obligations.SixDistinctPatternsInACycle : Prop :=
  ∀ k : Sector, nextSector^[6] k = k ∧
    ∀ m n : Nat, m < 6 → n < 6 →
      Config.params.pattern (nextSector^[m] k) = Config.params.pattern (nextSector^[n] k) → m = n

/-! ### Needle contexts: staging and initialisation -/

/-- R160: `LDARG`, its word, and that it writes one of the four staging registers and nothing else. -/
def Obligations.LdargLoadsOneRegister : Prop :=
  (∀ w : CmdWord, w.extractLsb' 26 6 = 0x08 → ∃ k : Sel, k.val = (w.extractLsb' 24 2).toNat ∧
    decode w = .ok (.ldarg k (w.extractLsb' 0 24))) ∧
  ∀ (k : Sel) (v : U24) (s : State), ∃ t, exec (.ldarg k v) s = .next t ∧ t.argAt k = v ∧
    (∀ j, j ≠ k → t.argAt j = s.argAt j) ∧ t = { s with arg := t.arg }

/-- R162, with the formula of R163 and R108: `NINIT`, its word, and that it gives context `c` the scale, inertia and
minimum period of the staging registers, the starting step, and the values of an idle, disabled, registered needle;
nothing else changes. -/
def Obligations.NinitInitialisesItsContext : Prop :=
  (∀ w : CmdWord, w.extractLsb' 26 6 = 0x09 → ∃ c : Sel, c.val = (w.extractLsb' 24 2).toNat ∧
    decode w = .ok (.ninit c)) ∧
  ∀ (c : Sel) (s : State), ∃ t, exec (.ninit c) s = .next t ∧
    if c.val < Config.params.nctx then
      (t.needle c).init = true ∧ (t.needle c).maxQ = s.argAt 0 ∧ (t.needle c).maxSteps = s.argAt 1 ∧
      (t.needle c).inertia = s.argAt 2 ∧
      ((t.needle c).periodMin.toNat : ℤ) =
        (if s.argAt 3 = 0 then (Config.params.periodInit.toNat : ℤ)
        else max 1 (min ⌈(1000000 : ℚ) / ((s.argAt 3).toNat * Config.params.tickUs)⌉ Config.params.periodInit.toNat)) ∧
      (t.needle c).enable = false ∧
      (t.needle c).cur.toNat = min (Config.params.startStep c).toNat (s.argAt 1).toNat ∧
      (t.needle c).tgt = (t.needle c).cur ∧ (t.needle c).cnt = 0 ∧ (t.needle c).period = Config.params.periodInit ∧
      (t.needle c).dir = false ∧ (∀ d, d ≠ c → t.needle d = s.needle d) ∧ t = { s with ctx := t.ctx }
    else t = s

/-- R163: the minimum period is in 1..PERIOD_INIT, and wherever one step per PERIOD_INIT is no faster than the
`max_needle_speed` asked for, so that the upper clamp does not cut the ceiling short, one step per minimum period is no
faster either. -/
def Obligations.MinimumPeriodBoundsTheSpeed : Prop :=
  ∀ (c : Sel) (s t : State), c.val < Config.params.nctx → exec (.ninit c) s = .next t →
    1 ≤ (t.needle c).periodMin.toNat ∧ (t.needle c).periodMin.toNat ≤ Config.params.periodInit.toNat ∧
    (1000000 ≤ Config.params.periodInit.toNat * Config.params.tickUs * (s.argAt 3).toNat →
      1000000 ≤ (t.needle c).periodMin.toNat * Config.params.tickUs * (s.argAt 3).toNat)

/-! ### Needle contexts: scale -/

/-- R165, R108: `NSETT`, its word, and that it stores round(qc × S / Q), half up, of the quantity clamped to 0..Q, and
changes nothing else; it is a no-op on an unregistered context, without a scale, and for an index not below NCTX. -/
def Obligations.NsettStoresTheRoundedTarget : Prop :=
  (∀ w : CmdWord, w.extractLsb' 26 6 = 0x0A → ∃ c : Sel, c.val = (w.extractLsb' 24 2).toNat ∧
    decode w = .ok (.nsett c (w.extractLsb' 0 24).toInt)) ∧
  ∀ (c : Sel) (q : Int) (s : State), ∃ t, exec (.nsett c q) s = .next t ∧
    if c.val < Config.params.nctx ∧ (s.needle c).init = true ∧ (s.needle c).maxQ ≠ 0 then
      ((t.needle c).tgt.toNat : ℤ) =
        ⌊((max 0 (min q (s.needle c).maxQ.toNat) : ℤ) : ℚ) * (s.needle c).maxSteps.toNat / (s.needle c).maxQ.toNat
          + 1 / 2⌋ ∧
      (t.needle c).tgt.toNat ≤ (s.needle c).maxSteps.toNat ∧
      t.needle c = { s.needle c with tgt := (t.needle c).tgt } ∧
      (∀ d, d ≠ c → t.needle d = s.needle d) ∧ t = { s with ctx := t.ctx }
    else t = s

/-- R167, R108: `NGETP`, its word, and that it writes `rsp` with round(cur × Q / S), half up, or 0 for an unregistered
context or S = 0, and changes nothing else; for an index not below NCTX it is a no-op. The value is at most Q. -/
def Obligations.NgetpReportsTheRoundedQuantity : Prop :=
  (∀ w : CmdWord, w.extractLsb' 26 6 = 0x0B → ∃ c : Sel, c.val = (w.extractLsb' 24 2).toNat ∧
    decode w = .ok (.ngetp c)) ∧
  ∀ (c : Sel) (s : State), (s.needle c).cur.toNat ≤ (s.needle c).maxSteps.toNat →
    ∃ t, exec (.ngetp c) s = .next t ∧
      if c.val < Config.params.nctx then
        t = { s with rsp := t.rsp } ∧
        (if (s.needle c).init = false ∨ (s.needle c).maxSteps = 0 then t.rsp = 0
        else (t.rsp.toNat : ℤ) =
            ⌊((s.needle c).cur.toNat : ℚ) * (s.needle c).maxQ.toNat / (s.needle c).maxSteps.toNat + 1 / 2⌋ ∧
          t.rsp.toNat ≤ (s.needle c).maxQ.toNat)
      else t = s

/-- R168: a quantity on the scale, set as the target and read back in any state in which the needle has this scale and
target and stands at the target, whatever its counter, period, direction and enable flag, returns within Q / (2 S) + 1/2, which is at most max(1, Q / S), and exactly when there is at least one step per unit. -/
def Obligations.QuantityRoundTrip : Prop :=
  ∀ (c : Sel) (q : Int) (s : State), c.val < Config.params.nctx → (s.needle c).init = true →
    1 ≤ (s.needle c).maxQ.toNat → 1 ≤ (s.needle c).maxSteps.toNat → 0 ≤ q → q ≤ (s.needle c).maxQ.toNat →
    ∃ t, exec (.nsett c q) s = .next t ∧
      ∀ u : State, (u.needle c).init = (t.needle c).init → (u.needle c).maxQ = (t.needle c).maxQ →
        (u.needle c).maxSteps = (t.needle c).maxSteps → (u.needle c).tgt = (t.needle c).tgt →
        (u.needle c).cur = (u.needle c).tgt →
        ∃ r, exec (.ngetp c) u = .next r ∧
          |(r.rsp.toNat : ℚ) - q| ≤ ((s.needle c).maxQ.toNat : ℚ) / (2 * (s.needle c).maxSteps.toNat) + 1 / 2 ∧
          ((s.needle c).maxQ.toNat : ℚ) / (2 * (s.needle c).maxSteps.toNat) + 1 / 2 ≤
            max 1 (((s.needle c).maxQ.toNat : ℚ) / (s.needle c).maxSteps.toNat) ∧
          ((s.needle c).maxQ.toNat ≤ (s.needle c).maxSteps.toNat → (r.rsp.toNat : ℤ) = q)

/-! ### Needle contexts: motion -/

/-- R169, R108: `NSTART`, its word, and that it sets the enable flag of a registered context and changes nothing else.
-/
def Obligations.NstartSetsTheEnableFlag : Prop :=
  (∀ w : CmdWord, w.extractLsb' 26 6 = 0x0C → ∃ c : Sel, c.val = (w.extractLsb' 24 2).toNat ∧
    decode w = .ok (.nstart c)) ∧
  ∀ (c : Sel) (s : State), ∃ t, exec (.nstart c) s = .next t ∧
    if c.val < Config.params.nctx ∧ (s.needle c).init = true then
      t.needle c = { s.needle c with enable := true } ∧ (∀ d, d ≠ c → t.needle d = s.needle d) ∧
      t = { s with ctx := t.ctx }
    else t = s

/-- R170, R108: `NSTOP`, its word, and that it clears the enable flag of a registered context and changes nothing else:
position, target, counter, period and direction stay, `NTASK` is then a no-op, and `NSTART` enables the context as it
was. -/
def Obligations.NstopClearsTheEnableFlag : Prop :=
  (∀ w : CmdWord, w.extractLsb' 26 6 = 0x0D → ∃ c : Sel, c.val = (w.extractLsb' 24 2).toNat ∧
    decode w = .ok (.nstop c)) ∧
  ∀ (c : Sel) (s : State), ∃ t, exec (.nstop c) s = .next t ∧
    if c.val < Config.params.nctx ∧ (s.needle c).init = true then
      t.needle c = { s.needle c with enable := false } ∧ (∀ d, d ≠ c → t.needle d = s.needle d) ∧
      t = { s with ctx := t.ctx } ∧ exec (.ntask c) t = .next t ∧
      ∃ u, exec (.nstart c) t = .next u ∧ u.needle c = { s.needle c with enable := true }
    else t = s

/-- R170, R174: a stop freezes a move: any number of `NTASK`s is then without effect, and `NSTART` gives back the very
state that was stopped. -/
def Obligations.StopFreezesAndStartResumes : Prop :=
  ∀ (c : Sel) (n : Nat) (s : State) (rest : List Input), c.val < Config.params.nctx → (s.needle c).init = true →
    (s.needle c).enable = true →
    s.inputs = .cmd (encode (.nstop c)) :: (List.replicate n (.cmd (encode (.ntask c))) ++
      .cmd (encode (.nstart c)) :: rest) →
    ∃ t, steps (n + 1) s = .next t ∧ t.needle c = { s.needle c with enable := false } ∧ t.trace = s.trace ∧
      steps 1 t = .next { s with inputs := rest }

/-- R174, R108: `NTASK` does nothing on a context that is unregistered, disabled, at its target, or not there. -/
def Obligations.NtaskDisabledOrIdleDoesNothing : Prop :=
  ∀ (c : Sel) (s : State),
    ((s.needle c).init = false ∨ (s.needle c).enable = false ∨ (s.needle c).cur = (s.needle c).tgt) →
    exec (.ntask c) s = .next s

/-- R172, R173, R108: `NTASK`, its word, and its effect. On a registered, enabled context away from its target it
counts, or makes one step: the position by one toward the target, the counter 0, the direction, one pulse that carries
it, and the ramp law's next period; nothing else changes. On any other context it does nothing. -/
def Obligations.NtaskCountsOrSteps : Prop :=
  (∀ w : CmdWord, w.extractLsb' 26 6 = 0x0E → ∃ c : Sel, c.val = (w.extractLsb' 24 2).toNat ∧
    decode w = .ok (.ntask c)) ∧
  ∀ (c : Sel) (s : State), ∃ t, exec (.ntask c) s = .next t ∧
    if c.val < Config.params.nctx ∧ (s.needle c).init = true ∧ (s.needle c).enable = true ∧
        (s.needle c).cur ≠ (s.needle c).tgt then
      (∀ d, d ≠ c → t.needle d = s.needle d) ∧ t = { s with ctx := t.ctx, trace := t.trace } ∧
      if (s.needle c).cnt.toNat + 1 < (s.needle c).period.toNat then
        t.trace = s.trace ∧ (t.needle c).cnt.toNat = (s.needle c).cnt.toNat + 1 ∧
        t.needle c = { s.needle c with cnt := (t.needle c).cnt }
      else
        (t.needle c).cnt = 0 ∧
        ((t.needle c).dir = true ↔ (s.needle c).cur.toNat < (s.needle c).tgt.toNat) ∧
        ((t.needle c).cur.toNat : ℤ) = (s.needle c).cur.toNat + (if (t.needle c).dir then 1 else -1) ∧
        t.trace = s.trace ++ [.stepPulse c (t.needle c).dir] ∧
        (∃ rem : U24, (rem.toNat : ℤ) = |((s.needle c).tgt.toNat : ℤ) - (t.needle c).cur.toNat| ∧
          (t.needle c).period = Config.params.ramp (s.needle c).period rem (s.needle c).inertia
            (s.needle c).periodMin Config.params.periodInit) ∧
        t.needle c = { s.needle c with
          cnt := 0, dir := (t.needle c).dir, cur := (t.needle c).cur, period := (t.needle c).period }
    else t = s

/-- R176 (P1 to P3) as the needle shows it: while more than the inertia allowance remains a step never lengthens the
period, within the allowance it never shortens it, and the period stays between the minimum and PERIOD_INIT. -/
def Obligations.PeriodFollowsTheRampContract : Prop :=
  ∀ (c : Sel) (s t : State), c.val < Config.params.nctx → NeedleInvariant Config.params (s.needle c) →
    exec (.ntask c) s = .next t → (t.needle c).cur ≠ (s.needle c).cur →
    (s.needle c).periodMin.toNat ≤ (t.needle c).period.toNat ∧
    (t.needle c).period.toNat ≤ Config.params.periodInit.toNat ∧
    ((s.needle c).inertia.toNat < (t.needle c).remaining → (t.needle c).period.toNat ≤ (s.needle c).period.toNat) ∧
    ((t.needle c).remaining ≤ (s.needle c).inertia.toNat → (s.needle c).period.toNat ≤ (t.needle c).period.toNat)

/-- R178: an enabled needle whose target does not change arrives within distance × PERIOD_INIT executions of `NTASK`,
having emitted exactly one pulse per step of the distance, all in the direction of the target: no overshoot. -/
def Obligations.NeedleArrivesWithoutOvershoot : Prop :=
  ∀ (c : Sel) (s : State) (n : Nat) (rest : List Input), c.val < Config.params.nctx →
    NeedleInvariant Config.params (s.needle c) → (s.needle c).enable = true →
    (s.needle c).remaining * Config.params.periodInit.toNat ≤ n →
    s.inputs = List.replicate n (.cmd (encode (.ntask c))) ++ rest →
    ∃ t, steps n s = .next t ∧ t.inputs = rest ∧ (t.needle c).cur = (s.needle c).tgt ∧
      (t.needle c).tgt = (s.needle c).tgt ∧
      t.trace = s.trace ++ List.replicate (s.needle c).remaining
        (.stepPulse c (decide ((s.needle c).cur.toNat < (s.needle c).tgt.toNat)))

/-- R179: a new target in mid-move carries counter and period over, and the next step goes toward the new target,
whichever side it is on, with the period then in force. -/
def Obligations.RetargetRedirectsTheNextStep : Prop :=
  ∀ (c : Sel) (q : Int) (s : State), c.val < Config.params.nctx → (s.needle c).init = true →
    (s.needle c).enable = true → (s.needle c).maxQ ≠ 0 →
    ∃ t u, exec (.nsett c q) s = .next t ∧ exec (.ntask c) t = .next u ∧ (t.needle c).cnt = (s.needle c).cnt ∧
      (t.needle c).period = (s.needle c).period ∧ (t.needle c).cur = (s.needle c).cur ∧
      ((s.needle c).period.toNat ≤ (s.needle c).cnt.toNat + 1 → (t.needle c).tgt ≠ (s.needle c).cur →
        ((u.needle c).remaining : ℤ) = (t.needle c).remaining - 1 ∧
        u.trace = s.trace ++ [.stepPulse c (decide ((s.needle c).cur.toNat < (t.needle c).tgt.toNat))])

/-- R37: until `NINIT` has registered a context its step and direction pins are not driven, `NSETT`, `NSTART`, `NSTOP` and `NTASK`
on it are no-ops, so that no pulse comes, and `NGETP` returns 0. -/
def Obligations.UnregisteredContextIsInert : Prop :=
  ∀ (c : Sel) (q : Int) (s : State), (s.needle c).init = false →
    s.dirPin Config.params c = none ∧ s.stepPin Config.params c = none ∧
    exec (.nsett c q) s = .next s ∧ exec (.nstart c) s = .next s ∧ exec (.nstop c) s = .next s ∧
    exec (.ntask c) s = .next s ∧
    exec (.ngetp c) s = .next (if c.val < Config.params.nctx then { s with rsp := 0 } else s)

/-- R108: a command with a context index that changes anything has an index below NCTX. -/
def Obligations.OnlyExistingContextsAreTouched : Prop :=
  ∀ (i : Instr) (c : Sel) (s t : State), contextOf i = some c → exec i s = .next t → t ≠ s →
    c.val < Config.params.nctx

/-- R36: a command with context index `c` leaves every other context as it was, and what it makes of context `c`, of
the response register and of the trace depends on nothing but them, context `c` and the staging registers. -/
def Obligations.ContextsDoNotInteract : Prop :=
  ∀ (i : Instr) (c : Sel) (s t s' t' : State), contextOf i = some c → exec i s = .next t → exec i s' = .next t' →
    (∀ d, d ≠ c → t.needle d = s.needle d) ∧
    (s.needle c = s'.needle c → s.arg = s'.arg →
      t.needle c = t'.needle c ∧ (s.rsp = s'.rsp → t.rsp = t'.rsp) ∧
      (s.trace = s'.trace → t.trace = t'.trace))

/-! ### Power and no-operation -/

/-- R201: `MSINIT`, its word, and that it drives the power line, off, and changes nothing else. -/
def Obligations.MsinitDrivesTheRailOff : Prop :=
  (∀ w : CmdWord, w.extractLsb' 26 6 = 0x10 → decode w = .ok .msinit) ∧
  ∀ s : State, exec .msinit s = .next { s with msOe := true, msPwr := false }

/-- R202: `MSPWR`, its word, and that it sets the rail to whether any registered context is enabled, and changes
nothing else. -/
def Obligations.MspwrFollowsTheEnables : Prop :=
  (∀ w : CmdWord, w.extractLsb' 26 6 = 0x11 → decode w = .ok .mspwr) ∧
  ∀ s : State, ∃ t, exec .mspwr s = .next t ∧ t = { s with msPwr := t.msPwr } ∧
    (t.msPwr = true ↔ ∃ c : Sel, c.val < Config.params.nctx ∧ (s.needle c).init = true ∧ (s.needle c).enable = true)

/-- R204, R14: `NOP`, its word, and that it changes nothing. -/
def Obligations.NopChangesNothing : Prop :=
  (∀ w : CmdWord, w.extractLsb' 26 6 = 0x00 → decode w = .ok .nop) ∧
  ∀ s : State, exec .nop s = .next s

/-- R11, R25, R37, R49: after reset no output pin is driven, and each `Init` command drives its own, de-asserted;
`NINIT` puts no pulse on the step line. -/
def Obligations.InitCommandsDriveTheirPins : Prop :=
  State.reset.tchPins = none ∧ State.reset.pwrPin = none ∧
  (∀ c, State.reset.dirPin Config.params c = none ∧ State.reset.stepPin Config.params c = none) ∧
  ∀ s : State, (∃ t, exec .tinit s = .next t ∧ t.tchPins = some 0) ∧ (∃ t, exec .msinit s = .next t ∧
    t.pwrPin = some false) ∧
    ∀ c : Sel, c.val < Config.params.nctx → ∃ t, exec (.ninit c) s = .next t ∧
      t.dirPin Config.params c = some false ∧ t.stepPin Config.params c = some (s.stepPulses c)

/-! ### Whole-machine rules -/

/-- R22, R23, R49, R50, R34, R203: which commands write the staging registers, the speed, the power level, the
response register, the commutation state and the other TCH and timer fields, and that none writes the tick count or takes a waiting strobe. -/
def Obligations.FieldsHaveOnlyTheirWriters : Prop :=
  ∀ (i : Instr) (s t : State), exec i s = .next t →
    (t.arg ≠ s.arg → ∃ k v, i = .ldarg k v) ∧
    (t.tchSpeed ≠ s.tchSpeed → i = .tinit ∨ ∃ v, i = .spdw v) ∧
    (t.msPwr ≠ s.msPwr → i = .mspwr ∨ i = .msinit) ∧
    (t.msOe ≠ s.msOe → i = .msinit) ∧
    (t.rsp ≠ s.rsp → ∃ c, i = .ngetp c) ∧
    (t.tchOe ≠ s.tchOe → i = .tinit) ∧
    ((t.tchState, t.tchOut, t.tmrRun, t.tmrDelay, t.tmrAcc, t.tmrElapsed) ≠
      (s.tchState, s.tchOut, s.tmrRun, s.tmrDelay, s.tmrAcc, s.tmrElapsed) → i = .tinit ∨ i = .ttask) ∧
    t.tickCount = s.tickCount ∧ t.inputs = s.inputs

/-- R35, R38 to R41, R43 to R47: which commands write each field of a needle context. -/
def Obligations.ContextFieldsHaveOnlyTheirWriters : Prop :=
  ∀ (i : Instr) (s t : State) (c : Sel), exec i s = .next t → i ≠ .ninit c →
    (t.needle c).init = (s.needle c).init ∧ (t.needle c).maxQ = (s.needle c).maxQ ∧
    (t.needle c).maxSteps = (s.needle c).maxSteps ∧ (t.needle c).inertia = (s.needle c).inertia ∧
    (t.needle c).periodMin = (s.needle c).periodMin ∧
    ((t.needle c).enable ≠ (s.needle c).enable → i = .nstart c ∨ i = .nstop c) ∧
    ((t.needle c).tgt ≠ (s.needle c).tgt → ∃ q, i = .nsett c q) ∧
    (((t.needle c).cur, (t.needle c).cnt, (t.needle c).period, (t.needle c).dir) ≠
      ((s.needle c).cur, (s.needle c).cnt, (s.needle c).period, (s.needle c).dir) → i = .ntask c)

/-- R262: only reset clears the output enables and unregisters a context. -/
def Obligations.OnlyResetUndrivesAndUnregisters : Prop :=
  ∀ s t : State, step s = .next t →
    ((s.tchOe = true ∧ t.tchOe = false) ∨ (s.msOe = true ∧ t.msOe = false) ∨
      ∃ c : Sel, (s.needle c).init = true ∧ (t.needle c).init = false) →
    ∃ rest, s.inputs = .rst :: rest

/-- R52, R173: but for reset the trace only grows, by at most one pulse a step, and only `NTASK` on the pulse's own
context emits it, at the direction level that context then has. -/
def Obligations.OnlyNtaskEmitsPulses : Prop :=
  ∀ s t : State, step s = .next t → t.trace = s.trace ∨ (∃ rest, s.inputs = .rst :: rest) ∨
    ∃ (c : Sel) (w : CmdWord) (rest : List Input), s.inputs = .cmd w :: rest ∧ decode w = .ok (.ntask c) ∧
      t.trace = s.trace ++ [.stepPulse c (t.needle c).dir]

/-- R130, R161: the two drives share nothing: a TCH command and a MANO command do the same in either order. -/
def Obligations.TchAndManoCommandsCommute : Prop :=
  ∀ (i j : Instr) (s : State), isTchCommand i = true → isManoCommand j = true →
    ∃ a b r, exec i s = .next a ∧ exec j s = .next b ∧ exec j a = .next r ∧ exec i b = .next r

/-! ### Invariants -/

/-- R33, R48: the invariants hold after reset. -/
def Obligations.ResetMeetsTheInvariants : Prop :=
  TchInvariant Config.params State.reset ∧ ManoInvariant Config.params State.reset

/-- R33, R30: every step, of whichever agent, keeps the TCH invariants. -/
def Obligations.StepKeepsTheTchInvariants : Prop :=
  ∀ s t : State, TchInvariant Config.params s → step s = .next t → TchInvariant Config.params t

/-- R48: every step, of whichever agent, keeps the MANO invariants. -/
def Obligations.StepKeepsTheManoInvariants : Prop :=
  ∀ s t : State, ManoInvariant Config.params s → step s = .next t → ManoInvariant Config.params t

/-! ### The lines of a needle -/

/-- R11, R52, R172, R173: but for reset, `step[c]` of a registered context goes on carrying the pulses it carried; an
`NTASK` on `c` that moves the needle adds exactly one, at the level `dir[c]` then has, and the needle's position changes
with no pulse only under `NINIT`. -/
def Obligations.StepLineCarriesOnePulsePerStep : Prop :=
  ∀ (c : Sel) (s t : State) (pulses : List Bool), s.stepPin Config.params c = some pulses → step s = .next t →
    (∃ rest, s.inputs = .rst :: rest ∧ t.stepPin Config.params c = none) ∨
    (t.stepPin Config.params c = some pulses ∧ ((t.needle c).cur ≠ (s.needle c).cur →
      ∃ w rest, s.inputs = .cmd w :: rest ∧ decode w = .ok (.ninit c))) ∨
    ∃ w rest d, s.inputs = .cmd w :: rest ∧ decode w = .ok (.ntask c) ∧ (t.needle c).cur ≠ (s.needle c).cur ∧
      t.dirPin Config.params c = some d ∧ t.stepPin Config.params c = some (pulses ++ [d])
end

