-- ==== Sys2Proof/Laws/Encoding.lean ====
section
/-! SUPPORT. The fields of an assembled command word, and its bytes. -/

namespace Sys2Proof

@[simp] theorem opField_packWord (op : BitVec 6) (sel : Sel) (imm : U24) : opField (packWord op sel imm) = op := by
  apply BitVec.eq_of_getLsbD_eq
  intro i hi
  simp only [opField, packWord, BitVec.getLsbD_extractLsb', BitVec.getLsbD_append, hi, decide_true, Bool.true_and]
  rw [if_neg (by omega), if_neg (by omega), show 26 + i - 24 - 2 = i by omega]

@[simp] theorem immField_packWord (op : BitVec 6) (sel : Sel) (imm : U24) : immField (packWord op sel imm) = imm := by
  apply BitVec.eq_of_getLsbD_eq
  intro i hi
  simp only [immField, packWord, BitVec.getLsbD_extractLsb', BitVec.getLsbD_append, hi, decide_true, Bool.true_and,
    Nat.zero_add, if_true]

@[simp] theorem selField_packWord (op : BitVec 6) (sel : Sel) (imm : U24) : selField (packWord op sel imm) = sel := by
  have h : (packWord op sel imm).extractLsb' 24 2 = BitVec.ofFin (w := 2) sel := by
    apply BitVec.eq_of_getLsbD_eq
    intro i hi
    simp only [packWord, BitVec.getLsbD_extractLsb', BitVec.getLsbD_append, hi, decide_true, Bool.true_and]
    rw [if_neg (by omega)]
    simp [hi, show 24 + i - 24 = i by omega]
  exact congrArg BitVec.toFin h

/-- A word is its three fields put together again. -/
theorem packWord_fields (w : CmdWord) : packWord (opField w) (selField w) (immField w) = w := by
  apply BitVec.eq_of_getLsbD_eq
  intro i hi
  have hs : BitVec.ofFin (w := 2) (selField w) = w.extractLsb' 24 2 := rfl
  simp only [packWord, hs, BitVec.getLsbD_append, opField, immField, BitVec.getLsbD_extractLsb']
  by_cases h1 : i < 24
  · simp [h1]
  · by_cases h2 : i - 24 < 2
    · simp [h1, h2, show 24 + (i - 24) = i by omega]
    · simp [h1, h2, show 26 + (i - 24 - 2) = i by omega, show i - 24 - 2 < 6 by omega]

/-- Masking a word masks its fields. -/
theorem opField_and (w m : CmdWord) : opField (w &&& m) = opField w &&& opField m := BitVec.extractLsb'_and

theorem immField_and (w m : CmdWord) : immField (w &&& m) = immField w &&& immField m := BitVec.extractLsb'_and

theorem selField_and (w m : CmdWord) :
    BitVec.ofFin (w := 2) (selField (w &&& m)) = BitVec.ofFin (w := 2) (selField w) &&& BitVec.ofFin (selField m) :=
  BitVec.extractLsb'_and

/-- The sign-extended immediate is the two's complement value of the field (30_encoding.md rule R103). -/
theorem sext24_eq_toInt (v : U24) : sext24 v = v.toInt := by
  have := v.isLt
  unfold sext24
  rw [BitVec.toInt_eq_toNat_cond]
  split <;> split <;> omega

theorem sext24_quantityFits (v : U24) : quantityFits (sext24 v) = true := by
  have := v.isLt
  unfold quantityFits sext24
  split <;> simp <;> omega

theorem sext24_ofInt {q : Int} (h : quantityFits q = true) : sext24 (BitVec.ofInt 24 q) = q := by
  simp only [quantityFits, Bool.and_eq_true, decide_eq_true_eq] at h
  rw [sext24_eq_toInt, BitVec.toInt_ofInt_eq_self] <;> omega

theorem ofInt_sext24 (v : U24) : BitVec.ofInt 24 (sext24 v) = v := by
  rw [sext24_eq_toInt, BitVec.ofInt_toInt]

/-- The bytes of a word, put together lowest first, are the word (20_memory.md rule R74). -/
theorem wordOfBytes_bytes (w : CmdWord) :
    wordOfBytes (w.extractLsb' 0 8) (w.extractLsb' 8 8) (w.extractLsb' 16 8) (w.extractLsb' 24 8) = w := by
  apply BitVec.eq_of_getLsbD_eq
  intro i hi
  simp only [wordOfBytes, BitVec.getLsbD_append, BitVec.getLsbD_extractLsb']
  by_cases h1 : i < 8
  · simp [h1]
  · by_cases h2 : i - 8 < 8
    · simp [h1, h2, show 8 + (i - 8) = i by omega]
    · by_cases h3 : i - 8 - 8 < 8
      · simp [h1, h2, h3, show 16 + (i - 8 - 8) = i by omega]
      · simp [h1, h2, h3, show 24 + (i - 8 - 8 - 8) = i by omega, show i - 8 - 8 - 8 < 8 by omega]

end Sys2Proof
end

