-- ==== Sys2Proof/Laws/Operands.lean ====
section
/-! SUPPORT. What the operand arithmetic computes, once per operation: each stored result fits its field
(00_scope.md rule R16). -/

namespace Sys2Proof.Machine

theorem clamp_eq (v lo hi : Int) (h : lo ≤ hi) : clamp v lo hi = max lo (min v hi) := by
  unfold clamp; split
  · omega
  · split <;> omega

/-- The scaled quantity stays on the scale when its operand does (41_mano.md rules R165, R167). -/
theorem roundScale_le {a num den : Nat} (hd : 0 < den) (h : a ≤ den) : roundScale a num den ≤ num := by
  unfold roundScale
  have h1 : 2 * a * num ≤ 2 * den * num := Nat.mul_le_mul_right _ (by omega)
  calc (2 * a * num + den) / (2 * den) ≤ (2 * den * num + den) / (2 * den) := Nat.div_le_div_right (by omega)
    _ ≤ num := by
      apply Nat.le_of_lt_succ
      rw [Nat.div_lt_iff_lt_mul (by omega)]
      have e : (num + 1) * (2 * den) = 2 * den * num + 2 * den := by ring
      rw [e]
      omega

/-- `roundScale` is the half-up rounding of the exact quotient: twice the error, in units of the divisor. -/
theorem roundScale_spec (a num den : Nat) (hd : 0 < den) :
    2 * den * roundScale a num den ≤ 2 * a * num + den ∧
      2 * a * num + den < 2 * den * roundScale a num den + 2 * den := by
  unfold roundScale
  constructor
  · exact Nat.mul_div_le _ _
  · have := Nat.lt_mul_div_succ (2 * a * num + den) (show 0 < 2 * den by omega)
    rw [Nat.mul_add, Nat.mul_one] at this
    exact this

/-- The second clamp of 41_mano.md rule R165 never acts (90_conflicts.md C10). -/
theorem targetStep_eq (q : Int) {Q : Nat} (hQ : 0 < Q) (S : Nat) :
    targetStep q Q S = roundScale (clamp q 0 Q).toNat S Q := by
  have h : roundScale (clamp q 0 Q).toNat S Q ≤ S :=
    roundScale_le hQ (by rw [clamp_eq _ _ _ (by omega)]; omega)
  unfold targetStep
  rw [clamp_eq _ _ _ (by omega)]
  omega

theorem targetStep_le (q : Int) (Q S : Nat) : targetStep q Q S ≤ S := by
  unfold targetStep
  rw [clamp_eq _ _ _ (by omega)]
  omega

/-- The remaining distance as a number (41_mano.md rule R172). -/
theorem distance_toNat (a b : U24) : (distance a b).toNat = ((a.toNat : Int) - (b.toNat : Int)).natAbs := by
  have := a.isLt
  have := b.isLt
  unfold distance
  rw [BitVec.toNat_ofNat, Nat.mod_eq_of_lt] <;> omega

theorem narrow32_of_lt {n : Nat} (h : n < 2 ^ 32) : narrow32 n = BitVec.ofNat 32 n := if_pos h

theorem narrow32_toNat {n : Nat} (h : n < 2 ^ 32) : (narrow32 n).toNat = n := by
  rw [narrow32_of_lt h, BitVec.toNat_ofNat, Nat.mod_eq_of_lt h]

/-- `PeriodMin` for a zero speed (41_mano.md rule R163). -/
theorem periodMin_zero (P : Params) {w : U24} (h : w.toNat = 0) : periodMin P w = P.periodInit := if_pos h

/-- `PeriodMin` for a positive speed, as a number (41_mano.md rule R163). -/
theorem periodMin_pos (P : Params) {w : U24} (h : w.toNat ≠ 0) :
    (periodMin P w).toNat = max 1 (min (ceilDiv 1000000 (w.toNat * P.tickUs)) P.periodInit.toNat) := by
  have h1 := P.periodInit_pos
  have h2 := P.periodInit.isLt
  unfold periodMin
  rw [if_neg h, clamp_eq _ _ _ (by omega), BitVec.toNat_ofNat, Nat.mod_eq_of_lt] <;> omega

/-- `1 ≤ n_period_min ≤ PERIOD_INIT` (10_state.md rule R40). -/
theorem periodMin_bounds (P : Params) (w : U24) :
    1 ≤ (periodMin P w).toNat ∧ (periodMin P w).toNat ≤ P.periodInit.toNat := by
  have := P.periodInit_pos
  by_cases h : w.toNat = 0
  · rw [periodMin_zero P h]; omega
  · rw [periodMin_pos P h]; omega

/-- The lookup of a speed at or above the threshold reads an engaged entry (40_tch.md rule R137). -/
theorem delay_engaged (P : Params) {v : U24} (h : P.speedMin ≤ v.toNat) :
    ∃ i : Fin (P.speedMax + 1), P.speedMin ≤ i.val ∧ delay P v = P.table i :=
  ⟨⟨min v.toNat P.speedMax, by omega⟩, by have := P.speedMin_range; simp only; omega, rfl⟩

end Sys2Proof.Machine
end

