-- ==== Sys2Proof/Laws/State.lean ====
section
/-! SUPPORT. The small lemmas of the state's updates: what each update makes of each field. -/

namespace Sys2Proof.Machine

/-! ### setTchOe -/

@[simp] theorem State.setTchOe_tickCount (b : Bool) (s : State) : (s.setTchOe b).tickCount = s.tickCount := rfl
@[simp] theorem State.setTchOe_tchOe (b : Bool) (s : State) : (s.setTchOe b).tchOe = b := rfl
@[simp] theorem State.setTchOe_tchState (b : Bool) (s : State) : (s.setTchOe b).tchState = s.tchState := rfl
@[simp] theorem State.setTchOe_tchSpeed (b : Bool) (s : State) : (s.setTchOe b).tchSpeed = s.tchSpeed := rfl
@[simp] theorem State.setTchOe_tchOut (b : Bool) (s : State) : (s.setTchOe b).tchOut = s.tchOut := rfl
@[simp] theorem State.setTchOe_tmrRun (b : Bool) (s : State) : (s.setTchOe b).tmrRun = s.tmrRun := rfl
@[simp] theorem State.setTchOe_tmrDelay (b : Bool) (s : State) : (s.setTchOe b).tmrDelay = s.tmrDelay := rfl
@[simp] theorem State.setTchOe_tmrAcc (b : Bool) (s : State) : (s.setTchOe b).tmrAcc = s.tmrAcc := rfl
@[simp] theorem State.setTchOe_tmrElapsed (b : Bool) (s : State) : (s.setTchOe b).tmrElapsed = s.tmrElapsed := rfl
@[simp] theorem State.setTchOe_arg (b : Bool) (s : State) : (s.setTchOe b).arg = s.arg := rfl
@[simp] theorem State.setTchOe_ctx (b : Bool) (s : State) : (s.setTchOe b).ctx = s.ctx := rfl
@[simp] theorem State.setTchOe_msOe (b : Bool) (s : State) : (s.setTchOe b).msOe = s.msOe := rfl
@[simp] theorem State.setTchOe_msPwr (b : Bool) (s : State) : (s.setTchOe b).msPwr = s.msPwr := rfl
@[simp] theorem State.setTchOe_rsp (b : Bool) (s : State) : (s.setTchOe b).rsp = s.rsp := rfl
@[simp] theorem State.setTchOe_trace (b : Bool) (s : State) : (s.setTchOe b).trace = s.trace := rfl
@[simp] theorem State.setTchOe_inputs (b : Bool) (s : State) : (s.setTchOe b).inputs = s.inputs := rfl

/-! ### setTmrRun -/

@[simp] theorem State.setTmrRun_tickCount (b : Bool) (s : State) : (s.setTmrRun b).tickCount = s.tickCount := rfl
@[simp] theorem State.setTmrRun_tchOe (b : Bool) (s : State) : (s.setTmrRun b).tchOe = s.tchOe := rfl
@[simp] theorem State.setTmrRun_tchState (b : Bool) (s : State) : (s.setTmrRun b).tchState = s.tchState := rfl
@[simp] theorem State.setTmrRun_tchSpeed (b : Bool) (s : State) : (s.setTmrRun b).tchSpeed = s.tchSpeed := rfl
@[simp] theorem State.setTmrRun_tchOut (b : Bool) (s : State) : (s.setTmrRun b).tchOut = s.tchOut := rfl
@[simp] theorem State.setTmrRun_tmrRun (b : Bool) (s : State) : (s.setTmrRun b).tmrRun = b := rfl
@[simp] theorem State.setTmrRun_tmrDelay (b : Bool) (s : State) : (s.setTmrRun b).tmrDelay = s.tmrDelay := rfl
@[simp] theorem State.setTmrRun_tmrAcc (b : Bool) (s : State) : (s.setTmrRun b).tmrAcc = s.tmrAcc := rfl
@[simp] theorem State.setTmrRun_tmrElapsed (b : Bool) (s : State) : (s.setTmrRun b).tmrElapsed = s.tmrElapsed := rfl
@[simp] theorem State.setTmrRun_arg (b : Bool) (s : State) : (s.setTmrRun b).arg = s.arg := rfl
@[simp] theorem State.setTmrRun_ctx (b : Bool) (s : State) : (s.setTmrRun b).ctx = s.ctx := rfl
@[simp] theorem State.setTmrRun_msOe (b : Bool) (s : State) : (s.setTmrRun b).msOe = s.msOe := rfl
@[simp] theorem State.setTmrRun_msPwr (b : Bool) (s : State) : (s.setTmrRun b).msPwr = s.msPwr := rfl
@[simp] theorem State.setTmrRun_rsp (b : Bool) (s : State) : (s.setTmrRun b).rsp = s.rsp := rfl
@[simp] theorem State.setTmrRun_trace (b : Bool) (s : State) : (s.setTmrRun b).trace = s.trace := rfl
@[simp] theorem State.setTmrRun_inputs (b : Bool) (s : State) : (s.setTmrRun b).inputs = s.inputs := rfl

/-! ### setMsOe -/

@[simp] theorem State.setMsOe_tickCount (b : Bool) (s : State) : (s.setMsOe b).tickCount = s.tickCount := rfl
@[simp] theorem State.setMsOe_tchOe (b : Bool) (s : State) : (s.setMsOe b).tchOe = s.tchOe := rfl
@[simp] theorem State.setMsOe_tchState (b : Bool) (s : State) : (s.setMsOe b).tchState = s.tchState := rfl
@[simp] theorem State.setMsOe_tchSpeed (b : Bool) (s : State) : (s.setMsOe b).tchSpeed = s.tchSpeed := rfl
@[simp] theorem State.setMsOe_tchOut (b : Bool) (s : State) : (s.setMsOe b).tchOut = s.tchOut := rfl
@[simp] theorem State.setMsOe_tmrRun (b : Bool) (s : State) : (s.setMsOe b).tmrRun = s.tmrRun := rfl
@[simp] theorem State.setMsOe_tmrDelay (b : Bool) (s : State) : (s.setMsOe b).tmrDelay = s.tmrDelay := rfl
@[simp] theorem State.setMsOe_tmrAcc (b : Bool) (s : State) : (s.setMsOe b).tmrAcc = s.tmrAcc := rfl
@[simp] theorem State.setMsOe_tmrElapsed (b : Bool) (s : State) : (s.setMsOe b).tmrElapsed = s.tmrElapsed := rfl
@[simp] theorem State.setMsOe_arg (b : Bool) (s : State) : (s.setMsOe b).arg = s.arg := rfl
@[simp] theorem State.setMsOe_ctx (b : Bool) (s : State) : (s.setMsOe b).ctx = s.ctx := rfl
@[simp] theorem State.setMsOe_msOe (b : Bool) (s : State) : (s.setMsOe b).msOe = b := rfl
@[simp] theorem State.setMsOe_msPwr (b : Bool) (s : State) : (s.setMsOe b).msPwr = s.msPwr := rfl
@[simp] theorem State.setMsOe_rsp (b : Bool) (s : State) : (s.setMsOe b).rsp = s.rsp := rfl
@[simp] theorem State.setMsOe_trace (b : Bool) (s : State) : (s.setMsOe b).trace = s.trace := rfl
@[simp] theorem State.setMsOe_inputs (b : Bool) (s : State) : (s.setMsOe b).inputs = s.inputs := rfl

/-! ### setMsPwr -/

@[simp] theorem State.setMsPwr_tickCount (b : Bool) (s : State) : (s.setMsPwr b).tickCount = s.tickCount := rfl
@[simp] theorem State.setMsPwr_tchOe (b : Bool) (s : State) : (s.setMsPwr b).tchOe = s.tchOe := rfl
@[simp] theorem State.setMsPwr_tchState (b : Bool) (s : State) : (s.setMsPwr b).tchState = s.tchState := rfl
@[simp] theorem State.setMsPwr_tchSpeed (b : Bool) (s : State) : (s.setMsPwr b).tchSpeed = s.tchSpeed := rfl
@[simp] theorem State.setMsPwr_tchOut (b : Bool) (s : State) : (s.setMsPwr b).tchOut = s.tchOut := rfl
@[simp] theorem State.setMsPwr_tmrRun (b : Bool) (s : State) : (s.setMsPwr b).tmrRun = s.tmrRun := rfl
@[simp] theorem State.setMsPwr_tmrDelay (b : Bool) (s : State) : (s.setMsPwr b).tmrDelay = s.tmrDelay := rfl
@[simp] theorem State.setMsPwr_tmrAcc (b : Bool) (s : State) : (s.setMsPwr b).tmrAcc = s.tmrAcc := rfl
@[simp] theorem State.setMsPwr_tmrElapsed (b : Bool) (s : State) : (s.setMsPwr b).tmrElapsed = s.tmrElapsed := rfl
@[simp] theorem State.setMsPwr_arg (b : Bool) (s : State) : (s.setMsPwr b).arg = s.arg := rfl
@[simp] theorem State.setMsPwr_ctx (b : Bool) (s : State) : (s.setMsPwr b).ctx = s.ctx := rfl
@[simp] theorem State.setMsPwr_msOe (b : Bool) (s : State) : (s.setMsPwr b).msOe = s.msOe := rfl
@[simp] theorem State.setMsPwr_msPwr (b : Bool) (s : State) : (s.setMsPwr b).msPwr = b := rfl
@[simp] theorem State.setMsPwr_rsp (b : Bool) (s : State) : (s.setMsPwr b).rsp = s.rsp := rfl
@[simp] theorem State.setMsPwr_trace (b : Bool) (s : State) : (s.setMsPwr b).trace = s.trace := rfl
@[simp] theorem State.setMsPwr_inputs (b : Bool) (s : State) : (s.setMsPwr b).inputs = s.inputs := rfl

/-! ### setInputs -/

@[simp] theorem State.setInputs_tickCount (l : List Input) (s : State) : (s.setInputs l).tickCount = s.tickCount := rfl
@[simp] theorem State.setInputs_tchOe (l : List Input) (s : State) : (s.setInputs l).tchOe = s.tchOe := rfl
@[simp] theorem State.setInputs_tchState (l : List Input) (s : State) : (s.setInputs l).tchState = s.tchState := rfl
@[simp] theorem State.setInputs_tchSpeed (l : List Input) (s : State) : (s.setInputs l).tchSpeed = s.tchSpeed := rfl
@[simp] theorem State.setInputs_tchOut (l : List Input) (s : State) : (s.setInputs l).tchOut = s.tchOut := rfl
@[simp] theorem State.setInputs_tmrRun (l : List Input) (s : State) : (s.setInputs l).tmrRun = s.tmrRun := rfl
@[simp] theorem State.setInputs_tmrDelay (l : List Input) (s : State) : (s.setInputs l).tmrDelay = s.tmrDelay := rfl
@[simp] theorem State.setInputs_tmrAcc (l : List Input) (s : State) : (s.setInputs l).tmrAcc = s.tmrAcc := rfl
@[simp] theorem State.setInputs_tmrElapsed (l : List Input) (s : State) : (s.setInputs l).tmrElapsed = s.tmrElapsed := rfl
@[simp] theorem State.setInputs_arg (l : List Input) (s : State) : (s.setInputs l).arg = s.arg := rfl
@[simp] theorem State.setInputs_ctx (l : List Input) (s : State) : (s.setInputs l).ctx = s.ctx := rfl
@[simp] theorem State.setInputs_msOe (l : List Input) (s : State) : (s.setInputs l).msOe = s.msOe := rfl
@[simp] theorem State.setInputs_msPwr (l : List Input) (s : State) : (s.setInputs l).msPwr = s.msPwr := rfl
@[simp] theorem State.setInputs_rsp (l : List Input) (s : State) : (s.setInputs l).rsp = s.rsp := rfl
@[simp] theorem State.setInputs_trace (l : List Input) (s : State) : (s.setInputs l).trace = s.trace := rfl
@[simp] theorem State.setInputs_inputs (l : List Input) (s : State) : (s.setInputs l).inputs = l := rfl

/-! ### setRsp -/

@[simp] theorem State.setRsp_tickCount (v : U32) (s : State) : (s.setRsp v).tickCount = s.tickCount := rfl
@[simp] theorem State.setRsp_tchOe (v : U32) (s : State) : (s.setRsp v).tchOe = s.tchOe := rfl
@[simp] theorem State.setRsp_tchState (v : U32) (s : State) : (s.setRsp v).tchState = s.tchState := rfl
@[simp] theorem State.setRsp_tchSpeed (v : U32) (s : State) : (s.setRsp v).tchSpeed = s.tchSpeed := rfl
@[simp] theorem State.setRsp_tchOut (v : U32) (s : State) : (s.setRsp v).tchOut = s.tchOut := rfl
@[simp] theorem State.setRsp_tmrRun (v : U32) (s : State) : (s.setRsp v).tmrRun = s.tmrRun := rfl
@[simp] theorem State.setRsp_tmrDelay (v : U32) (s : State) : (s.setRsp v).tmrDelay = s.tmrDelay := rfl
@[simp] theorem State.setRsp_tmrAcc (v : U32) (s : State) : (s.setRsp v).tmrAcc = s.tmrAcc := rfl
@[simp] theorem State.setRsp_tmrElapsed (v : U32) (s : State) : (s.setRsp v).tmrElapsed = s.tmrElapsed := rfl
@[simp] theorem State.setRsp_arg (v : U32) (s : State) : (s.setRsp v).arg = s.arg := rfl
@[simp] theorem State.setRsp_ctx (v : U32) (s : State) : (s.setRsp v).ctx = s.ctx := rfl
@[simp] theorem State.setRsp_msOe (v : U32) (s : State) : (s.setRsp v).msOe = s.msOe := rfl
@[simp] theorem State.setRsp_msPwr (v : U32) (s : State) : (s.setRsp v).msPwr = s.msPwr := rfl
@[simp] theorem State.setRsp_rsp (v : U32) (s : State) : (s.setRsp v).rsp = v := rfl
@[simp] theorem State.setRsp_trace (v : U32) (s : State) : (s.setRsp v).trace = s.trace := rfl
@[simp] theorem State.setRsp_inputs (v : U32) (s : State) : (s.setRsp v).inputs = s.inputs := rfl

/-! ### emit -/

@[simp] theorem State.emit_tickCount (e : Event) (s : State) : (s.emit e).tickCount = s.tickCount := rfl
@[simp] theorem State.emit_tchOe (e : Event) (s : State) : (s.emit e).tchOe = s.tchOe := rfl
@[simp] theorem State.emit_tchState (e : Event) (s : State) : (s.emit e).tchState = s.tchState := rfl
@[simp] theorem State.emit_tchSpeed (e : Event) (s : State) : (s.emit e).tchSpeed = s.tchSpeed := rfl
@[simp] theorem State.emit_tchOut (e : Event) (s : State) : (s.emit e).tchOut = s.tchOut := rfl
@[simp] theorem State.emit_tmrRun (e : Event) (s : State) : (s.emit e).tmrRun = s.tmrRun := rfl
@[simp] theorem State.emit_tmrDelay (e : Event) (s : State) : (s.emit e).tmrDelay = s.tmrDelay := rfl
@[simp] theorem State.emit_tmrAcc (e : Event) (s : State) : (s.emit e).tmrAcc = s.tmrAcc := rfl
@[simp] theorem State.emit_tmrElapsed (e : Event) (s : State) : (s.emit e).tmrElapsed = s.tmrElapsed := rfl
@[simp] theorem State.emit_arg (e : Event) (s : State) : (s.emit e).arg = s.arg := rfl
@[simp] theorem State.emit_ctx (e : Event) (s : State) : (s.emit e).ctx = s.ctx := rfl
@[simp] theorem State.emit_msOe (e : Event) (s : State) : (s.emit e).msOe = s.msOe := rfl
@[simp] theorem State.emit_msPwr (e : Event) (s : State) : (s.emit e).msPwr = s.msPwr := rfl
@[simp] theorem State.emit_rsp (e : Event) (s : State) : (s.emit e).rsp = s.rsp := rfl
@[simp] theorem State.emit_trace (e : Event) (s : State) : (s.emit e).trace = s.trace ++ [e] := rfl
@[simp] theorem State.emit_inputs (e : Event) (s : State) : (s.emit e).inputs = s.inputs := rfl

/-! ### setArg -/

@[simp] theorem State.setArg_tickCount (k : Sel) (v : U24) (s : State) : (s.setArg k v).tickCount = s.tickCount := rfl
@[simp] theorem State.setArg_tchOe (k : Sel) (v : U24) (s : State) : (s.setArg k v).tchOe = s.tchOe := rfl
@[simp] theorem State.setArg_tchState (k : Sel) (v : U24) (s : State) : (s.setArg k v).tchState = s.tchState := rfl
@[simp] theorem State.setArg_tchSpeed (k : Sel) (v : U24) (s : State) : (s.setArg k v).tchSpeed = s.tchSpeed := rfl
@[simp] theorem State.setArg_tchOut (k : Sel) (v : U24) (s : State) : (s.setArg k v).tchOut = s.tchOut := rfl
@[simp] theorem State.setArg_tmrRun (k : Sel) (v : U24) (s : State) : (s.setArg k v).tmrRun = s.tmrRun := rfl
@[simp] theorem State.setArg_tmrDelay (k : Sel) (v : U24) (s : State) : (s.setArg k v).tmrDelay = s.tmrDelay := rfl
@[simp] theorem State.setArg_tmrAcc (k : Sel) (v : U24) (s : State) : (s.setArg k v).tmrAcc = s.tmrAcc := rfl
@[simp] theorem State.setArg_tmrElapsed (k : Sel) (v : U24) (s : State) : (s.setArg k v).tmrElapsed = s.tmrElapsed := rfl
@[simp] theorem State.setArg_arg (k : Sel) (v : U24) (s : State) : (s.setArg k v).arg = s.arg.set k v := rfl
@[simp] theorem State.setArg_ctx (k : Sel) (v : U24) (s : State) : (s.setArg k v).ctx = s.ctx := rfl
@[simp] theorem State.setArg_msOe (k : Sel) (v : U24) (s : State) : (s.setArg k v).msOe = s.msOe := rfl
@[simp] theorem State.setArg_msPwr (k : Sel) (v : U24) (s : State) : (s.setArg k v).msPwr = s.msPwr := rfl
@[simp] theorem State.setArg_rsp (k : Sel) (v : U24) (s : State) : (s.setArg k v).rsp = s.rsp := rfl
@[simp] theorem State.setArg_trace (k : Sel) (v : U24) (s : State) : (s.setArg k v).trace = s.trace := rfl
@[simp] theorem State.setArg_inputs (k : Sel) (v : U24) (s : State) : (s.setArg k v).inputs = s.inputs := rfl

/-! ### setCtx -/

@[simp] theorem State.setCtx_tickCount (c : Sel) (x : NeedleContext) (s : State) : (s.setCtx c x).tickCount = s.tickCount := rfl
@[simp] theorem State.setCtx_tchOe (c : Sel) (x : NeedleContext) (s : State) : (s.setCtx c x).tchOe = s.tchOe := rfl
@[simp] theorem State.setCtx_tchState (c : Sel) (x : NeedleContext) (s : State) : (s.setCtx c x).tchState = s.tchState := rfl
@[simp] theorem State.setCtx_tchSpeed (c : Sel) (x : NeedleContext) (s : State) : (s.setCtx c x).tchSpeed = s.tchSpeed := rfl
@[simp] theorem State.setCtx_tchOut (c : Sel) (x : NeedleContext) (s : State) : (s.setCtx c x).tchOut = s.tchOut := rfl
@[simp] theorem State.setCtx_tmrRun (c : Sel) (x : NeedleContext) (s : State) : (s.setCtx c x).tmrRun = s.tmrRun := rfl
@[simp] theorem State.setCtx_tmrDelay (c : Sel) (x : NeedleContext) (s : State) : (s.setCtx c x).tmrDelay = s.tmrDelay := rfl
@[simp] theorem State.setCtx_tmrAcc (c : Sel) (x : NeedleContext) (s : State) : (s.setCtx c x).tmrAcc = s.tmrAcc := rfl
@[simp] theorem State.setCtx_tmrElapsed (c : Sel) (x : NeedleContext) (s : State) : (s.setCtx c x).tmrElapsed = s.tmrElapsed := rfl
@[simp] theorem State.setCtx_arg (c : Sel) (x : NeedleContext) (s : State) : (s.setCtx c x).arg = s.arg := rfl
@[simp] theorem State.setCtx_ctx (c : Sel) (x : NeedleContext) (s : State) : (s.setCtx c x).ctx = s.ctx.set c x := rfl
@[simp] theorem State.setCtx_msOe (c : Sel) (x : NeedleContext) (s : State) : (s.setCtx c x).msOe = s.msOe := rfl
@[simp] theorem State.setCtx_msPwr (c : Sel) (x : NeedleContext) (s : State) : (s.setCtx c x).msPwr = s.msPwr := rfl
@[simp] theorem State.setCtx_rsp (c : Sel) (x : NeedleContext) (s : State) : (s.setCtx c x).rsp = s.rsp := rfl
@[simp] theorem State.setCtx_trace (c : Sel) (x : NeedleContext) (s : State) : (s.setCtx c x).trace = s.trace := rfl
@[simp] theorem State.setCtx_inputs (c : Sel) (x : NeedleContext) (s : State) : (s.setCtx c x).inputs = s.inputs := rfl

/-! ### setTchSpeed -/

@[simp] theorem State.setTchSpeed_tickCount (v : U24) (s : State) : (s.setTchSpeed v).tickCount = s.tickCount := rfl
@[simp] theorem State.setTchSpeed_tchOe (v : U24) (s : State) : (s.setTchSpeed v).tchOe = s.tchOe := rfl
@[simp] theorem State.setTchSpeed_tchState (v : U24) (s : State) : (s.setTchSpeed v).tchState = s.tchState := rfl
@[simp] theorem State.setTchSpeed_tchSpeed (v : U24) (s : State) : (s.setTchSpeed v).tchSpeed = v := rfl
@[simp] theorem State.setTchSpeed_tchOut (v : U24) (s : State) : (s.setTchSpeed v).tchOut = s.tchOut := rfl
@[simp] theorem State.setTchSpeed_tmrRun (v : U24) (s : State) : (s.setTchSpeed v).tmrRun = s.tmrRun := rfl
@[simp] theorem State.setTchSpeed_tmrDelay (v : U24) (s : State) : (s.setTchSpeed v).tmrDelay = s.tmrDelay := rfl
@[simp] theorem State.setTchSpeed_tmrAcc (v : U24) (s : State) : (s.setTchSpeed v).tmrAcc = s.tmrAcc := rfl
@[simp] theorem State.setTchSpeed_tmrElapsed (v : U24) (s : State) : (s.setTchSpeed v).tmrElapsed = s.tmrElapsed := rfl
@[simp] theorem State.setTchSpeed_arg (v : U24) (s : State) : (s.setTchSpeed v).arg = s.arg := rfl
@[simp] theorem State.setTchSpeed_ctx (v : U24) (s : State) : (s.setTchSpeed v).ctx = s.ctx := rfl
@[simp] theorem State.setTchSpeed_msOe (v : U24) (s : State) : (s.setTchSpeed v).msOe = s.msOe := rfl
@[simp] theorem State.setTchSpeed_msPwr (v : U24) (s : State) : (s.setTchSpeed v).msPwr = s.msPwr := rfl
@[simp] theorem State.setTchSpeed_rsp (v : U24) (s : State) : (s.setTchSpeed v).rsp = s.rsp := rfl
@[simp] theorem State.setTchSpeed_trace (v : U24) (s : State) : (s.setTchSpeed v).trace = s.trace := rfl
@[simp] theorem State.setTchSpeed_inputs (v : U24) (s : State) : (s.setTchSpeed v).inputs = s.inputs := rfl

/-! ### setTchOut -/

@[simp] theorem State.setTchOut_tickCount (o : Lines) (s : State) : (s.setTchOut o).tickCount = s.tickCount := rfl
@[simp] theorem State.setTchOut_tchOe (o : Lines) (s : State) : (s.setTchOut o).tchOe = s.tchOe := rfl
@[simp] theorem State.setTchOut_tchState (o : Lines) (s : State) : (s.setTchOut o).tchState = s.tchState := rfl
@[simp] theorem State.setTchOut_tchSpeed (o : Lines) (s : State) : (s.setTchOut o).tchSpeed = s.tchSpeed := rfl
@[simp] theorem State.setTchOut_tchOut (o : Lines) (s : State) : (s.setTchOut o).tchOut = o := rfl
@[simp] theorem State.setTchOut_tmrRun (o : Lines) (s : State) : (s.setTchOut o).tmrRun = s.tmrRun := rfl
@[simp] theorem State.setTchOut_tmrDelay (o : Lines) (s : State) : (s.setTchOut o).tmrDelay = s.tmrDelay := rfl
@[simp] theorem State.setTchOut_tmrAcc (o : Lines) (s : State) : (s.setTchOut o).tmrAcc = s.tmrAcc := rfl
@[simp] theorem State.setTchOut_tmrElapsed (o : Lines) (s : State) : (s.setTchOut o).tmrElapsed = s.tmrElapsed := rfl
@[simp] theorem State.setTchOut_arg (o : Lines) (s : State) : (s.setTchOut o).arg = s.arg := rfl
@[simp] theorem State.setTchOut_ctx (o : Lines) (s : State) : (s.setTchOut o).ctx = s.ctx := rfl
@[simp] theorem State.setTchOut_msOe (o : Lines) (s : State) : (s.setTchOut o).msOe = s.msOe := rfl
@[simp] theorem State.setTchOut_msPwr (o : Lines) (s : State) : (s.setTchOut o).msPwr = s.msPwr := rfl
@[simp] theorem State.setTchOut_rsp (o : Lines) (s : State) : (s.setTchOut o).rsp = s.rsp := rfl
@[simp] theorem State.setTchOut_trace (o : Lines) (s : State) : (s.setTchOut o).trace = s.trace := rfl
@[simp] theorem State.setTchOut_inputs (o : Lines) (s : State) : (s.setTchOut o).inputs = s.inputs := rfl

/-! ### loadTimer -/

@[simp] theorem State.loadTimer_tickCount (d : U24) (s : State) : (s.loadTimer d).tickCount = s.tickCount := rfl
@[simp] theorem State.loadTimer_tchOe (d : U24) (s : State) : (s.loadTimer d).tchOe = s.tchOe := rfl
@[simp] theorem State.loadTimer_tchState (d : U24) (s : State) : (s.loadTimer d).tchState = s.tchState := rfl
@[simp] theorem State.loadTimer_tchSpeed (d : U24) (s : State) : (s.loadTimer d).tchSpeed = s.tchSpeed := rfl
@[simp] theorem State.loadTimer_tchOut (d : U24) (s : State) : (s.loadTimer d).tchOut = s.tchOut := rfl
@[simp] theorem State.loadTimer_tmrRun (d : U24) (s : State) : (s.loadTimer d).tmrRun = s.tmrRun := rfl
@[simp] theorem State.loadTimer_tmrDelay (d : U24) (s : State) : (s.loadTimer d).tmrDelay = d := rfl
@[simp] theorem State.loadTimer_tmrAcc (d : U24) (s : State) : (s.loadTimer d).tmrAcc = 0 := rfl
@[simp] theorem State.loadTimer_tmrElapsed (d : U24) (s : State) : (s.loadTimer d).tmrElapsed = false := rfl
@[simp] theorem State.loadTimer_arg (d : U24) (s : State) : (s.loadTimer d).arg = s.arg := rfl
@[simp] theorem State.loadTimer_ctx (d : U24) (s : State) : (s.loadTimer d).ctx = s.ctx := rfl
@[simp] theorem State.loadTimer_msOe (d : U24) (s : State) : (s.loadTimer d).msOe = s.msOe := rfl
@[simp] theorem State.loadTimer_msPwr (d : U24) (s : State) : (s.loadTimer d).msPwr = s.msPwr := rfl
@[simp] theorem State.loadTimer_rsp (d : U24) (s : State) : (s.loadTimer d).rsp = s.rsp := rfl
@[simp] theorem State.loadTimer_trace (d : U24) (s : State) : (s.loadTimer d).trace = s.trace := rfl
@[simp] theorem State.loadTimer_inputs (d : U24) (s : State) : (s.loadTimer d).inputs = s.inputs := rfl

/-! ### enterOff -/

@[simp] theorem State.enterOff_tickCount (s : State) : (s.enterOff).tickCount = s.tickCount := rfl
@[simp] theorem State.enterOff_tchOe (s : State) : (s.enterOff).tchOe = s.tchOe := rfl
@[simp] theorem State.enterOff_tchState (s : State) : (s.enterOff).tchState = .off := rfl
@[simp] theorem State.enterOff_tchSpeed (s : State) : (s.enterOff).tchSpeed = s.tchSpeed := rfl
@[simp] theorem State.enterOff_tchOut (s : State) : (s.enterOff).tchOut = 0 := rfl
@[simp] theorem State.enterOff_tmrRun (s : State) : (s.enterOff).tmrRun = s.tmrRun := rfl
@[simp] theorem State.enterOff_tmrDelay (s : State) : (s.enterOff).tmrDelay = s.tmrDelay := rfl
@[simp] theorem State.enterOff_tmrAcc (s : State) : (s.enterOff).tmrAcc = s.tmrAcc := rfl
@[simp] theorem State.enterOff_tmrElapsed (s : State) : (s.enterOff).tmrElapsed = s.tmrElapsed := rfl
@[simp] theorem State.enterOff_arg (s : State) : (s.enterOff).arg = s.arg := rfl
@[simp] theorem State.enterOff_ctx (s : State) : (s.enterOff).ctx = s.ctx := rfl
@[simp] theorem State.enterOff_msOe (s : State) : (s.enterOff).msOe = s.msOe := rfl
@[simp] theorem State.enterOff_msPwr (s : State) : (s.enterOff).msPwr = s.msPwr := rfl
@[simp] theorem State.enterOff_rsp (s : State) : (s.enterOff).rsp = s.rsp := rfl
@[simp] theorem State.enterOff_trace (s : State) : (s.enterOff).trace = s.trace := rfl
@[simp] theorem State.enterOff_inputs (s : State) : (s.enterOff).inputs = s.inputs := rfl

/-! ### enterSector -/

@[simp] theorem State.enterSector_tickCount (P : Params) (k : Sector) (s : State) : (s.enterSector P k).tickCount = s.tickCount := rfl
@[simp] theorem State.enterSector_tchOe (P : Params) (k : Sector) (s : State) : (s.enterSector P k).tchOe = s.tchOe := rfl
@[simp] theorem State.enterSector_tchState (P : Params) (k : Sector) (s : State) : (s.enterSector P k).tchState = .sector k := rfl
@[simp] theorem State.enterSector_tchSpeed (P : Params) (k : Sector) (s : State) : (s.enterSector P k).tchSpeed = s.tchSpeed := rfl
@[simp] theorem State.enterSector_tchOut (P : Params) (k : Sector) (s : State) : (s.enterSector P k).tchOut = P.pattern k := rfl
@[simp] theorem State.enterSector_tmrRun (P : Params) (k : Sector) (s : State) : (s.enterSector P k).tmrRun = s.tmrRun := rfl
@[simp] theorem State.enterSector_tmrDelay (P : Params) (k : Sector) (s : State) : (s.enterSector P k).tmrDelay = s.tmrDelay := rfl
@[simp] theorem State.enterSector_tmrAcc (P : Params) (k : Sector) (s : State) : (s.enterSector P k).tmrAcc = s.tmrAcc := rfl
@[simp] theorem State.enterSector_tmrElapsed (P : Params) (k : Sector) (s : State) : (s.enterSector P k).tmrElapsed = s.tmrElapsed := rfl
@[simp] theorem State.enterSector_arg (P : Params) (k : Sector) (s : State) : (s.enterSector P k).arg = s.arg := rfl
@[simp] theorem State.enterSector_ctx (P : Params) (k : Sector) (s : State) : (s.enterSector P k).ctx = s.ctx := rfl
@[simp] theorem State.enterSector_msOe (P : Params) (k : Sector) (s : State) : (s.enterSector P k).msOe = s.msOe := rfl
@[simp] theorem State.enterSector_msPwr (P : Params) (k : Sector) (s : State) : (s.enterSector P k).msPwr = s.msPwr := rfl
@[simp] theorem State.enterSector_rsp (P : Params) (k : Sector) (s : State) : (s.enterSector P k).rsp = s.rsp := rfl
@[simp] theorem State.enterSector_trace (P : Params) (k : Sector) (s : State) : (s.enterSector P k).trace = s.trace := rfl
@[simp] theorem State.enterSector_inputs (P : Params) (k : Sector) (s : State) : (s.enterSector P k).inputs = s.inputs := rfl

/-! ### countTick -/

@[simp] theorem State.countTick_tickCount (s : State) : (s.countTick).tickCount = s.tickCount + 1 := rfl
@[simp] theorem State.countTick_tchOe (s : State) : (s.countTick).tchOe = s.tchOe := rfl
@[simp] theorem State.countTick_tchState (s : State) : (s.countTick).tchState = s.tchState := rfl
@[simp] theorem State.countTick_tchSpeed (s : State) : (s.countTick).tchSpeed = s.tchSpeed := rfl
@[simp] theorem State.countTick_tchOut (s : State) : (s.countTick).tchOut = s.tchOut := rfl
@[simp] theorem State.countTick_tmrRun (s : State) : (s.countTick).tmrRun = s.tmrRun := rfl
@[simp] theorem State.countTick_tmrDelay (s : State) : (s.countTick).tmrDelay = s.tmrDelay := rfl
@[simp] theorem State.countTick_tmrAcc (s : State) : (s.countTick).tmrAcc = s.tmrAcc := rfl
@[simp] theorem State.countTick_tmrElapsed (s : State) : (s.countTick).tmrElapsed = s.tmrElapsed := rfl
@[simp] theorem State.countTick_arg (s : State) : (s.countTick).arg = s.arg := rfl
@[simp] theorem State.countTick_ctx (s : State) : (s.countTick).ctx = s.ctx := rfl
@[simp] theorem State.countTick_msOe (s : State) : (s.countTick).msOe = s.msOe := rfl
@[simp] theorem State.countTick_msPwr (s : State) : (s.countTick).msPwr = s.msPwr := rfl
@[simp] theorem State.countTick_rsp (s : State) : (s.countTick).rsp = s.rsp := rfl
@[simp] theorem State.countTick_trace (s : State) : (s.countTick).trace = s.trace := rfl
@[simp] theorem State.countTick_inputs (s : State) : (s.countTick).inputs = s.inputs := rfl

/-! ### The four argument registers and the four context slots -/

@[simp] theorem State.argAt_setArg (k j : Sel) (v : U24) (s : State) :
    (s.setArg k v).argAt j = if k = j then v else s.argAt j := by
  simp [State.setArg, State.argAt, Vector.get_eq_getElem, Vector.getElem_set, Fin.ext_iff]

@[simp] theorem State.needle_emit (e : Event) (s : State) (c : Sel) : (s.emit e).needle c = s.needle c := rfl

@[simp] theorem State.needle_setInputs (l : List Input) (s : State) (c : Sel) :
    (s.setInputs l).needle c = s.needle c := rfl

@[simp] theorem State.needle_setCtx_self (c : Sel) (x : NeedleContext) (s : State) :
    (s.setCtx c x).needle c = x := by
  simp [State.setCtx, State.needle, Vector.get_eq_getElem]

theorem State.needle_setCtx (c d : Sel) (x : NeedleContext) (s : State) :
    (s.setCtx c x).needle d = if c = d then x else s.needle d := by
  simp [State.setCtx, State.needle, Vector.get_eq_getElem, Vector.getElem_set, Fin.ext_iff]

theorem State.needle_setCtx_ne {c d : Sel} (h : d ≠ c) (x : NeedleContext) (s : State) :
    (s.setCtx c x).needle d = s.needle d := by
  rw [State.needle_setCtx, if_neg (Ne.symm h)]

theorem State.setCtx_same (c : Sel) (s : State) : s.setCtx c (s.needle c) = s := by
  simp [State.setCtx, State.needle, Vector.get_eq_getElem]

theorem State.setCtx_setCtx (c : Sel) (x y : NeedleContext) (s : State) :
    (s.setCtx c x).setCtx c y = s.setCtx c y := by
  simp [State.setCtx]

/-- Reads depend on the array they read and on nothing else. -/
theorem State.needle_congr {s t : State} (h : s.ctx = t.ctx) (c : Sel) : s.needle c = t.needle c := by
  rw [State.needle, State.needle, h]

theorem State.argAt_congr {s t : State} (h : s.arg = t.arg) (k : Sel) : s.argAt k = t.argAt k := by
  rw [State.argAt, State.argAt, h]

/-! ### Reads of the arrays after the other updates -/

@[simp] theorem State.setTchOe_needle (b : Bool) (s : State) (j : Sel) : (s.setTchOe b).needle j = s.needle j := rfl
@[simp] theorem State.setTchOe_argAt (b : Bool) (s : State) (j : Sel) : (s.setTchOe b).argAt j = s.argAt j := rfl
@[simp] theorem State.setTmrRun_needle (b : Bool) (s : State) (j : Sel) : (s.setTmrRun b).needle j = s.needle j := rfl
@[simp] theorem State.setTmrRun_argAt (b : Bool) (s : State) (j : Sel) : (s.setTmrRun b).argAt j = s.argAt j := rfl
@[simp] theorem State.setMsOe_needle (b : Bool) (s : State) (j : Sel) : (s.setMsOe b).needle j = s.needle j := rfl
@[simp] theorem State.setMsOe_argAt (b : Bool) (s : State) (j : Sel) : (s.setMsOe b).argAt j = s.argAt j := rfl
@[simp] theorem State.setMsPwr_needle (b : Bool) (s : State) (j : Sel) : (s.setMsPwr b).needle j = s.needle j := rfl
@[simp] theorem State.setMsPwr_argAt (b : Bool) (s : State) (j : Sel) : (s.setMsPwr b).argAt j = s.argAt j := rfl
@[simp] theorem State.setInputs_needle (l : List Input) (s : State) (j : Sel) : (s.setInputs l).needle j = s.needle j := rfl
@[simp] theorem State.setInputs_argAt (l : List Input) (s : State) (j : Sel) : (s.setInputs l).argAt j = s.argAt j := rfl
@[simp] theorem State.setRsp_needle (v : U32) (s : State) (j : Sel) : (s.setRsp v).needle j = s.needle j := rfl
@[simp] theorem State.setRsp_argAt (v : U32) (s : State) (j : Sel) : (s.setRsp v).argAt j = s.argAt j := rfl
@[simp] theorem State.emit_needle (e : Event) (s : State) (j : Sel) : (s.emit e).needle j = s.needle j := rfl
@[simp] theorem State.emit_argAt (e : Event) (s : State) (j : Sel) : (s.emit e).argAt j = s.argAt j := rfl
@[simp] theorem State.setArg_needle (k : Sel) (v : U24) (s : State) (j : Sel) : (s.setArg k v).needle j = s.needle j := rfl
@[simp] theorem State.setCtx_argAt (c : Sel) (x : NeedleContext) (s : State) (j : Sel) : (s.setCtx c x).argAt j = s.argAt j := rfl
@[simp] theorem State.setTchSpeed_needle (v : U24) (s : State) (j : Sel) : (s.setTchSpeed v).needle j = s.needle j := rfl
@[simp] theorem State.setTchSpeed_argAt (v : U24) (s : State) (j : Sel) : (s.setTchSpeed v).argAt j = s.argAt j := rfl
@[simp] theorem State.setTchOut_needle (o : Lines) (s : State) (j : Sel) : (s.setTchOut o).needle j = s.needle j := rfl
@[simp] theorem State.setTchOut_argAt (o : Lines) (s : State) (j : Sel) : (s.setTchOut o).argAt j = s.argAt j := rfl
@[simp] theorem State.loadTimer_needle (d : U24) (s : State) (j : Sel) : (s.loadTimer d).needle j = s.needle j := rfl
@[simp] theorem State.loadTimer_argAt (d : U24) (s : State) (j : Sel) : (s.loadTimer d).argAt j = s.argAt j := rfl
@[simp] theorem State.enterOff_needle (s : State) (j : Sel) : (s.enterOff).needle j = s.needle j := rfl
@[simp] theorem State.enterOff_argAt (s : State) (j : Sel) : (s.enterOff).argAt j = s.argAt j := rfl
@[simp] theorem State.enterSector_needle (P : Params) (k : Sector) (s : State) (j : Sel) : (s.enterSector P k).needle j = s.needle j := rfl
@[simp] theorem State.enterSector_argAt (P : Params) (k : Sector) (s : State) (j : Sel) : (s.enterSector P k).argAt j = s.argAt j := rfl
@[simp] theorem State.countTick_needle (s : State) (j : Sel) : (s.countTick).needle j = s.needle j := rfl
@[simp] theorem State.countTick_argAt (s : State) (j : Sel) : (s.countTick).argAt j = s.argAt j := rfl

/-! ### Reset -/

@[simp] theorem State.needle_resetWith (P : Params) (c : Sel) :
    (State.resetWith P).needle c = NeedleContext.resetWith P := by
  simp [State.resetWith, State.needle, Vector.get_eq_getElem]

@[simp] theorem State.argAt_resetWith (P : Params) (k : Sel) : (State.resetWith P).argAt k = 0 := by
  simp [State.resetWith, State.argAt, Vector.get_eq_getElem]

end Sys2Proof.Machine
end

