-- ==== Sys2Proof/Laws/Ops.lean ====
section
/-! SUPPORT. Everything each shared operation can do, once per operation; cite these and leave the operations folded. -/

namespace Sys2Proof.Machine

/-! ### Contexts -/

theorem onContext_out {P : Params} {c : Sel} (h : ¬ c.val < P.nctx) (s : State) (f : NeedleContext → State) :
    s.onContext P c f = s := if_neg h

theorem onContext_in {P : Params} {c : Sel} (h : c.val < P.nctx) (s : State) (f : NeedleContext → State) :
    s.onContext P c f = f (s.needle c) := if_pos h

theorem onRegistered_in {P : Params} {c : Sel} (h : c.val < P.nctx) {s : State} (hi : (s.needle c).init = true)
    (f : NeedleContext → State) : s.onRegistered P c f = f (s.needle c) := by
  rw [State.onRegistered, onContext_in h, if_pos hi]

theorem onRegistered_unregistered (P : Params) {c : Sel} {s : State} (hi : (s.needle c).init = false)
    (f : NeedleContext → State) : s.onRegistered P c f = s := by
  unfold State.onRegistered State.onContext
  simp [hi]

/-- A command on a registered context acts on it, or does nothing. -/
theorem onRegistered_cases (P : Params) (c : Sel) (s : State) (f : NeedleContext → State) :
    (c.val < P.nctx ∧ (s.needle c).init = true ∧ s.onRegistered P c f = f (s.needle c)) ∨ s.onRegistered P c f = s := by
  by_cases hc : c.val < P.nctx
  · cases hi : (s.needle c).init
    · exact .inr (onRegistered_unregistered P hi f)
    · exact .inl ⟨hc, rfl, onRegistered_in hc hi f⟩
  · exact .inr (onContext_out hc s _)

/-- A change of the state that leaves context `c` alone, and that the command's own effect carries along, passes through
the command. -/
theorem onContext_map {P : Params} {c : Sel} {s : State} (F : State → State) {f f' : NeedleContext → State}
    (hn : (F s).needle c = s.needle c) (hf : ∀ x, f' x = F (f x)) :
    (F s).onContext P c f' = F (s.onContext P c f) := by
  unfold State.onContext; rw [hn]; split <;> simp [hf]

theorem onRegistered_map {P : Params} {c : Sel} {s : State} (F : State → State) {f f' : NeedleContext → State}
    (hn : (F s).needle c = s.needle c) (hf : ∀ x, f' x = F (f x)) :
    (F s).onRegistered P c f' = F (s.onRegistered P c f) :=
  onContext_map F hn fun x => by split <;> simp [hf]

/-! ### Commutation Drive -/

theorem nextSector_injective (j k : Sector) (h : nextSector j = nextSector k) : j = k := by
  revert h; cases j <;> cases k <;> decide

/-- The five things one `TTASK` can do (40_tch.md rule R134), and the sixth of the unrecognized state (rule R136). -/
theorem tchTask_cases (P : Params) (s : State) :
    (s.tchState = .off ∧ P.speedMin ≤ s.tchSpeed.toNat ∧
      tchTask P s = ((s.setTmrRun true).loadTimer (delay P s.tchSpeed)).enterSector P .step1) ∨
    (s.tchState = .off ∧ s.tchSpeed.toNat < P.speedMin ∧ tchTask P s = s.setTchOut 0) ∨
    (∃ k, s.tchState = .sector k ∧ s.tchSpeed.toNat < P.speedMin ∧ tchTask P s = (s.setTmrRun false).enterOff) ∨
    (∃ k, s.tchState = .sector k ∧ P.speedMin ≤ s.tchSpeed.toNat ∧ s.tmrElapsed = true ∧
      tchTask P s = (s.loadTimer (delay P s.tchSpeed)).enterSector P (nextSector k)) ∨
    (∃ k, s.tchState = .sector k ∧ P.speedMin ≤ s.tchSpeed.toNat ∧ s.tmrElapsed = false ∧
      tchTask P s = s.setTchOut (P.pattern k)) ∨
    (s.tchState = .unrecognized ∧ tchTask P s = s) := by
  unfold tchTask
  cases h : s.tchState with
  | off => by_cases hv : P.speedMin ≤ s.tchSpeed.toNat <;> simp [hv]; omega
  | sector k =>
    by_cases hv : s.tchSpeed.toNat < P.speedMin
    · simp [hv]
    · cases he : s.tmrElapsed <;> simp [hv] <;> omega
  | unrecognized => simp

/-- `TTASK` writes the state, the lines and the timer, and nothing else (10_state.md rule R34). -/
theorem tchTask_writes (P : Params) (s : State) :
    tchTask P s =
      { s with
        tchState := (tchTask P s).tchState
        tchOut := (tchTask P s).tchOut
        tmrRun := (tchTask P s).tmrRun
        tmrDelay := (tchTask P s).tmrDelay
        tmrAcc := (tchTask P s).tmrAcc
        tmrElapsed := (tchTask P s).tmrElapsed } := by
  obtain ⟨-, -, h⟩ | ⟨-, -, h⟩ | ⟨_, -, -, h⟩ | ⟨_, -, -, -, h⟩ | ⟨_, -, -, -, h⟩ | ⟨-, h⟩ := tchTask_cases P s <;>
    rw [h] <;> rfl

/-! ### Needles -/

/-- The stored target is the number the rule computes: it fits its field (41_mano.md rule R165). -/
theorem target_toNat (q : Int) (Q : Nat) (S : U24) :
    (BitVec.ofNat 24 (targetStep q Q S.toNat)).toNat = targetStep q Q S.toNat := by
  have h1 := targetStep_le q Q S.toNat
  have h2 := S.isLt
  rw [BitVec.toNat_ofNat, Nat.mod_eq_of_lt (by omega)]

/-- What `NSETT` does to a registered context with a scale (41_mano.md rule R165). -/
theorem setTarget_in {P : Params} {c : Sel} {s : State} (q : Int) (hc : c.val < P.nctx)
    (hi : (s.needle c).init = true) (hq : (s.needle c).maxQ.toNat ≠ 0) :
    setTarget P c q s =
      s.setCtx c { s.needle c with
        tgt := BitVec.ofNat 24 (targetStep q (s.needle c).maxQ.toNat (s.needle c).maxSteps.toNat) } := by
  rw [setTarget, onRegistered_in hc hi, if_neg hq]

/-- What `NSTART` and `NSTOP` do to a registered context (41_mano.md rules R169, R170). -/
theorem setNeedleEnable_in {P : Params} {c : Sel} {s : State} (b : Bool) (hc : c.val < P.nctx)
    (hi : (s.needle c).init = true) : setNeedleEnable P c b s = s.setCtx c { s.needle c with enable := b } := by
  rw [setNeedleEnable, onRegistered_in hc hi]; rfl

/-- What `NTASK` does to a registered, enabled context that is not at its target (41_mano.md rule R172). -/
theorem needleTask_moving {P : Params} {c : Sel} {s : State} (hc : c.val < P.nctx) (hi : (s.needle c).init = true)
    (he : (s.needle c).enable = true) (hm : (s.needle c).cur ≠ (s.needle c).tgt) :
    needleTask P c s =
      if (s.needle c).cnt.toNat + 1 < (s.needle c).period.toNat then
        s.setCtx c { (s.needle c) with cnt := (s.needle c).cnt + 1 }
      else stepNeedle P c (s.needle c) s := by
  unfold needleTask
  rw [onRegistered_in hc hi]
  simp [he, hm]

/-- The three things one `NTASK` can do: nothing, count, or step (41_mano.md rules R172, R174). -/
theorem needleTask_cases (P : Params) (c : Sel) (s : State) :
    needleTask P c s = s ∨
    (c.val < P.nctx ∧ (s.needle c).init = true ∧ (s.needle c).enable = true ∧ (s.needle c).cur ≠ (s.needle c).tgt ∧
      (s.needle c).cnt.toNat + 1 < (s.needle c).period.toNat ∧
      needleTask P c s = s.setCtx c { (s.needle c) with cnt := (s.needle c).cnt + 1 }) ∨
    (c.val < P.nctx ∧ (s.needle c).init = true ∧ (s.needle c).enable = true ∧ (s.needle c).cur ≠ (s.needle c).tgt ∧
      (s.needle c).period.toNat ≤ (s.needle c).cnt.toNat + 1 ∧ needleTask P c s = stepNeedle P c (s.needle c) s) := by
  obtain ⟨hc, hi, -⟩ | h := onRegistered_cases P c s fun x =>
    if !x.enable then s
    else if x.cur = x.tgt then s
    else if x.cnt.toNat + 1 < x.period.toNat then s.setCtx c { x with cnt := x.cnt + 1 }
    else stepNeedle P c x s
  · cases he : (s.needle c).enable
    · left; unfold needleTask; rw [onRegistered_in hc hi]; simp [he]
    · by_cases hm : (s.needle c).cur = (s.needle c).tgt
      · left; unfold needleTask; rw [onRegistered_in hc hi]; simp [hm]
      · right
        rw [needleTask_moving hc hi he hm]
        by_cases hk : (s.needle c).cnt.toNat + 1 < (s.needle c).period.toNat
        · left; exact ⟨hc, hi, rfl, hm, hk, if_pos hk⟩
        · right; exact ⟨hc, hi, rfl, hm, by omega, if_neg hk⟩
  · exact .inl h

/-- The counter of a context that goes on waiting (41_mano.md rule R172). -/
theorem count_toNat {x : NeedleContext} (h : x.cnt.toNat + 1 < x.period.toNat) :
    (x.cnt + 1).toNat = x.cnt.toNat + 1 := by
  have := x.period.isLt
  have h1 : (1 : U24).toNat = 1 := rfl
  rw [BitVec.toNat_add, h1]
  omega

/-- One step moves the believed position by one toward the target (41_mano.md rule R172). -/
theorem stepped_cur_toNat (P : Params) {x : NeedleContext} (h : x.cur ≠ x.tgt) :
    (x.stepped P).cur.toNat = if x.cur.toNat < x.tgt.toNat then x.cur.toNat + 1 else x.cur.toNat - 1 := by
  have h1 := x.cur.isLt
  have h2 := x.tgt.isLt
  have h3 : x.cur.toNat ≠ x.tgt.toNat := fun e => h (BitVec.eq_of_toNat_eq e)
  unfold NeedleContext.stepped
  by_cases hu : x.cur.toNat < x.tgt.toNat
  · simp [hu]; omega
  · simp [hu, BitVec.toNat_sub]; omega

@[simp] theorem stepped_dir (P : Params) (x : NeedleContext) :
    (x.stepped P).dir = decide (x.cur.toNat < x.tgt.toNat) := rfl

@[simp] theorem stepped_cnt (P : Params) (x : NeedleContext) : (x.stepped P).cnt = 0 := rfl

@[simp] theorem stepped_init (P : Params) (x : NeedleContext) : (x.stepped P).init = x.init := rfl

@[simp] theorem stepped_enable (P : Params) (x : NeedleContext) : (x.stepped P).enable = x.enable := rfl

@[simp] theorem stepped_tgt (P : Params) (x : NeedleContext) : (x.stepped P).tgt = x.tgt := rfl

@[simp] theorem stepped_maxQ (P : Params) (x : NeedleContext) : (x.stepped P).maxQ = x.maxQ := rfl

@[simp] theorem stepped_maxSteps (P : Params) (x : NeedleContext) : (x.stepped P).maxSteps = x.maxSteps := rfl

@[simp] theorem stepped_inertia (P : Params) (x : NeedleContext) : (x.stepped P).inertia = x.inertia := rfl

@[simp] theorem stepped_periodMin (P : Params) (x : NeedleContext) : (x.stepped P).periodMin = x.periodMin := rfl

/-- The period after a step is the ramp law of the distance then remaining (41_mano.md rule R172). -/
theorem stepped_period (P : Params) (x : NeedleContext) :
    (x.stepped P).period =
      P.ramp x.period (distance x.tgt (x.stepped P).cur) x.inertia x.periodMin P.periodInit := rfl

/-! ### Power -/

/-- "any context is enabled" (42_manos_system.md rule R202). -/
theorem anyEnabled_iff (P : Params) (s : State) :
    anyEnabled P s = true ↔ ∃ c : Sel, c.val < P.nctx ∧ (s.needle c).init = true ∧ (s.needle c).enable = true := by
  have hall : ∀ c : Sel, c ∈ ([0, 1, 2, 3] : List Sel) := by decide
  simp only [anyEnabled, List.any_eq_true, Bool.and_eq_true, decide_eq_true_eq, and_assoc]
  exact ⟨fun ⟨c, _, h⟩ => ⟨c, h⟩, fun ⟨c, h⟩ => ⟨c, hall c, h⟩⟩

end Sys2Proof.Machine
end

