-- ==== Sys2Proof/Laws/PerInstr.lean ====
section
/-! SUPPORT. The family `EncodeOpcode`: what the encoder writes outside the operand fields, one lemma per
constructor. -/

namespace Sys2Proof.Laws.EncodeOpcode

/-- The encoder writes the command's opcode in `op`, and 0 in every bit the command's format does not use
(30_encoding.md rules R102, R105, R110). -/
def Statement (i : Instr) : Prop := opField (encode i) = i.opcode ∧ encode i &&& ~~~usedBits i = 0

/-- A word of format C has immediate bits 0. -/
theorem packWord_context (op : BitVec 6) (c : Sel) : packWord op c 0 &&& ~~~(0xFF000000 : CmdWord) = 0 := by
  revert op c; decide

/-- A word of format I has selector bits 0. -/
theorem packWord_immediate (op : BitVec 6) (v : U24) : packWord op 0 v &&& ~~~(0xFCFFFFFF : CmdWord) = 0 := by
  rw [show ~~~(0xFCFFFFFF : CmdWord) = ((0 : BitVec 6) ++ (3 : BitVec 2)) ++ (0 : U24) by decide, packWord,
    BitVec.and_append, BitVec.and_append]
  simp

theorem nop : Statement .nop := by unfold Statement; decide

theorem tinit : Statement .tinit := by unfold Statement; decide

theorem ttask : Statement .ttask := by unfold Statement; decide

theorem spdw (v : U24) : Statement (.spdw v) := ⟨opField_packWord _ _ _, packWord_immediate _ v⟩

theorem ldarg (k : Sel) (v : U24) : Statement (.ldarg k v) := ⟨opField_packWord _ _ _, by simp [usedBits]⟩

theorem ninit (c : Sel) : Statement (.ninit c) := ⟨opField_packWord _ _ _, packWord_context _ c⟩

theorem nsett (c : Sel) (q : Int) : Statement (.nsett c q) := ⟨opField_packWord _ _ _, by simp [usedBits]⟩

theorem ngetp (c : Sel) : Statement (.ngetp c) := ⟨opField_packWord _ _ _, packWord_context _ c⟩

theorem nstart (c : Sel) : Statement (.nstart c) := ⟨opField_packWord _ _ _, packWord_context _ c⟩

theorem nstop (c : Sel) : Statement (.nstop c) := ⟨opField_packWord _ _ _, packWord_context _ c⟩

theorem ntask (c : Sel) : Statement (.ntask c) := ⟨opField_packWord _ _ _, packWord_context _ c⟩

theorem msinit : Statement .msinit := by unfold Statement; decide

theorem mspwr : Statement .mspwr := by unfold Statement; decide

end Sys2Proof.Laws.EncodeOpcode
end

