-- ==== Sys2Proof/Laws/Pins.lean ====
section
/-! SUPPORT. What the pins of a context show: when they are driven, and what an emitted event adds. -/

namespace Sys2Proof.Machine

theorem dirPin_driven {P : Params} {c : Sel} {s : State} (hc : c.val < P.nctx) (hi : (s.needle c).init = true) :
    s.dirPin P c = some (s.needle c).dir := if_pos ⟨hc, hi⟩

theorem stepPin_driven {P : Params} {c : Sel} {s : State} (hc : c.val < P.nctx) (hi : (s.needle c).init = true) :
    s.stepPin P c = some (s.stepPulses c) := if_pos ⟨hc, hi⟩

theorem dirPin_undriven (P : Params) {c : Sel} {s : State} (hi : (s.needle c).init = false) : s.dirPin P c = none := by
  simp [State.dirPin, hi]

theorem stepPin_undriven (P : Params) {c : Sel} {s : State} (hi : (s.needle c).init = false) : s.stepPin P c = none := by
  simp [State.stepPin, hi]

/-- Both lines of a context are driven together (00_scope.md rule R11). -/
theorem stepPin_eq_none_iff (P : Params) (c : Sel) (s : State) : s.stepPin P c = none ↔ s.dirPin P c = none := by
  simp [State.stepPin, State.dirPin]

theorem stepPulses_congr {s t : State} (h : t.trace = s.trace) (c : Sel) : t.stepPulses c = s.stepPulses c := by
  rw [State.stepPulses, h, State.stepPulses]

/-- A pulse shows on its own context's line, and on no other. -/
theorem stepPulses_append {s t : State} {d : Sel} {b : Bool} (h : t.trace = s.trace ++ [.stepPulse d b]) (c : Sel) :
    t.stepPulses c = s.stepPulses c ++ (if d = c then [b] else []) := by
  rw [State.stepPulses, h, List.filterMap_append]
  by_cases e : d = c <;> simp [State.stepPulses, Event.pulseOn, e]

end Sys2Proof.Machine
end

