-- ==== Sys2Proof/Laws/Step.lean ====
section
/-! SUPPORT. What one step and several steps do, and the machine as a function of its parameters: every command and
every step answers a next state. -/

namespace Sys2Proof.Machine

/-! ### The tick -/

/-- What a tick does to a timer that is counting (60_exceptions.md rule R226). -/
theorem advanceTimer_counting {P : Params} {s : State} (hr : s.tmrRun = true) (he : s.tmrElapsed = false) :
    s.advanceTimer P =
      { s with
        tmrAcc := narrow32 (s.tmrAcc.toNat + P.tickUs)
        tmrElapsed := decide (s.tmrDelay.toNat ≤ s.tmrAcc.toNat + P.tickUs) } := by
  simp [State.advanceTimer, hr, he]

/-- A stopped or elapsed timer is left alone by a tick (60_exceptions.md rule R226). -/
theorem advanceTimer_holding {P : Params} {s : State} (h : ¬(s.tmrRun = true ∧ s.tmrElapsed = false)) :
    s.advanceTimer P = s := by
  rw [State.advanceTimer, if_neg (by simpa using h)]

/-- A tick writes `tick_count`, `tmr_acc` and `tmr_elapsed` and nothing else (60_exceptions.md rule R224). -/
theorem tickEvent_writes (P : Params) (s : State) :
    tickEvent P s =
      { s with
        tickCount := s.tickCount + 1
        tmrAcc := (tickEvent P s).tmrAcc
        tmrElapsed := (tickEvent P s).tmrElapsed } := by
  unfold tickEvent State.advanceTimer
  split <;> rfl

@[simp] theorem tickEvent_inputs (P : Params) (s : State) : (tickEvent P s).inputs = s.inputs := by
  rw [tickEvent_writes]

@[simp] theorem tickEvent_tchState (P : Params) (s : State) : (tickEvent P s).tchState = s.tchState := by
  rw [tickEvent_writes]

@[simp] theorem tickEvent_needle (P : Params) (s : State) (c : Sel) : (tickEvent P s).needle c = s.needle c := by
  rw [tickEvent_writes]; rfl

/-! ### Steps -/

theorem step_nil {s : State} (h : s.inputs = []) : step s = .next s := by
  simp [step, h]

theorem step_cons {s : State} {x : Input} {rest : List Input} (h : s.inputs = x :: rest) :
    step s = acceptInput x (s.setInputs rest) := by
  simp [step, h]

/-- A command word that decodes runs its command, on the state from which the strobe has been taken. -/
theorem step_cmd {s : State} {w : CmdWord} {rest : List Input} {i : Instr} (h : s.inputs = .cmd w :: rest)
    (hd : decode w = .ok i) : step s = exec i (s.setInputs rest) := by
  simp [step_cons h, acceptInput, runWord, hd]

theorem step_tick {s : State} {rest : List Input} (h : s.inputs = .tick :: rest) :
    step s = .next (tickEvent Config.params (s.setInputs rest)) := by
  simp [step_cons h, acceptInput]

theorem steps_succ {n : Nat} {s t : State} (h : step s = .next t) : steps (n + 1) s = steps n t := by
  simp [steps, h]

theorem steps_add {m n : Nat} {s t : State} (h : steps m s = .next t) : steps (m + n) s = steps n t := by
  induction m generalizing s with
  | zero => rw [Nat.zero_add]; cases h; rfl
  | succ m ih =>
    rw [Nat.succ_add]
    simp only [steps] at h ⊢
    split at h
    · exact ih h
    · cases h
    · cases h

/-! ### The machine as a function of its parameters

Every command completes (60_exceptions.md rule R220), so what a command does is a function of the parameters and the
state. Tests evaluate it at the parameter set VSET, where `exec` itself cannot be evaluated because its parameters are
an opaque constant. -/

/-- What a command makes of a state, for any parameters. -/
def effect (P : Params) : Instr → State → State
  | .nop, s => s
  | .tinit, s => tchInit s
  | .ttask, s => tchTask P s
  | .spdw v, s => s.setTchSpeed v
  | .ldarg k v, s => s.setArg k v
  | .ninit c, s => needleInit P c s
  | .nsett c q, s => setTarget P c q s
  | .ngetp c, s => readQuantity P c s
  | .nstart c, s => setNeedleEnable P c true s
  | .nstop c, s => setNeedleEnable P c false s
  | .ntask c, s => needleTask P c s
  | .msinit, s => powerInit s
  | .mspwr, s => managePower P s

/-- What a step makes of a state, for any parameters. -/
def stepEffect (P : Params) (s : State) : State :=
  match s.inputs with
  | [] => s
  | .rst :: rest => (s.setInputs rest).applyReset P
  | .tick :: rest => tickEvent P (s.setInputs rest)
  | .tickCmd w :: rest => tickEvent P (s.setInputs (.cmd w :: rest))
  | .cmd w :: rest =>
    match decode w with
    | .ok i => effect P i (s.setInputs rest)
    | .error _ => s.setInputs rest

/-- `exec` is that function at the parameters of the block at hand. -/
theorem exec_eq (i : Instr) (s : State) : exec i s = .next (effect Config.params i s) := by
  cases i <;> rfl

/-- `step` is that function at the parameters of the block at hand. -/
theorem step_eq (s : State) : step s = .next (stepEffect Config.params s) := by
  unfold step stepEffect
  split
  · rename_i h; simp [h]
  · rename_i x rest h
    cases x <;> simp only [h, acceptInput, runWord, State.setInputs_inputs]
    · split <;> simp_all [exec_eq]
    · rfl

theorem exec_next_iff {i : Instr} {s t : State} : exec i s = .next t ↔ t = effect Config.params i s := by
  rw [exec_eq]; exact ⟨fun h => by cases h; rfl, fun h => by rw [h]⟩

theorem step_next_iff {s t : State} : step s = .next t ↔ t = stepEffect Config.params s := by
  rw [step_eq]; exact ⟨fun h => by cases h; rfl, fun h => by rw [h]⟩

/-- No command touches the waiting strobes. -/
@[simp] theorem effect_inputs (P : Params) (i : Instr) (s : State) : (effect P i s).inputs = s.inputs := by
  cases i <;> simp only [effect, tchInit, powerInit, managePower, State.setTchSpeed_inputs, State.setArg_inputs,
    State.loadTimer_inputs, State.setTmrRun_inputs, State.enterOff_inputs, State.setTchOe_inputs,
    State.setMsPwr_inputs, State.setMsOe_inputs]
  case ttask =>
    obtain ⟨-, -, h⟩ | ⟨-, -, h⟩ | ⟨_, -, -, h⟩ | ⟨_, -, -, -, h⟩ | ⟨_, -, -, -, h⟩ | ⟨-, h⟩ := tchTask_cases P s <;>
      simp [h]
  case ninit c => unfold needleInit State.onContext; split <;> simp
  case nsett c q => obtain ⟨-, -, h⟩ | h := onRegistered_cases P c s _ <;> rw [setTarget, h]; split <;> simp
  case ngetp c => unfold readQuantity State.onContext; split <;> simp
  case nstart c => obtain ⟨-, -, h⟩ | h := onRegistered_cases P c s _ <;> rw [setNeedleEnable, h]; simp
  case nstop c => obtain ⟨-, -, h⟩ | h := onRegistered_cases P c s _ <;> rw [setNeedleEnable, h]; simp
  case ntask c =>
    obtain h | ⟨-, -, -, -, -, h⟩ | ⟨-, -, -, -, -, h⟩ := needleTask_cases P c s <;> simp [h, stepNeedle]

/-- A command whose context index is not below `NCTX` does nothing (30_encoding.md rule R108). -/
theorem effect_context_out {P : Params} {i : Instr} {c : Sel} (hi : contextOf i = some c) (hc : ¬ c.val < P.nctx)
    (s : State) : effect P i s = s := by
  cases i <;> simp only [contextOf, Option.some.injEq, reduceCtorEq] at hi <;> subst hi <;>
    simp only [effect, needleInit, setTarget, readQuantity, setNeedleEnable, needleTask, State.onRegistered] <;>
    exact onContext_out hc _ _

/-- A command with context index `c` writes context `c`, the response register and the trace, and nothing else; the
response register only if it is `NGETP`, the trace only if it is `NTASK` (41_mano.md rule R161). -/
theorem effect_context_writes (P : Params) {i : Instr} {c : Sel} (hi : contextOf i = some c) (s : State) :
    ∃ x r tr, effect P i s = { s.setCtx c x with rsp := r, trace := tr } ∧ (r ≠ s.rsp → i = .ngetp c) ∧
      (tr = s.trace ∨ i = .ntask c ∧ tr = s.trace ++ [.stepPulse c x.dir]) := by
  have same : ∃ x r tr, s = { s.setCtx c x with rsp := r, trace := tr } ∧ (r ≠ s.rsp → i = .ngetp c) ∧
      (tr = s.trace ∨ i = .ntask c ∧ tr = s.trace ++ [.stepPulse c x.dir]) :=
    ⟨s.needle c, s.rsp, s.trace, by rw [State.setCtx_same], fun h => absurd rfl h, .inl rfl⟩
  have ctx : ∀ x, ∃ y r tr, s.setCtx c x = { s.setCtx c y with rsp := r, trace := tr } ∧ (r ≠ s.rsp → i = .ngetp c) ∧
      (tr = s.trace ∨ i = .ntask c ∧ tr = s.trace ++ [.stepPulse c y.dir]) :=
    fun x => ⟨x, s.rsp, s.trace, rfl, fun h => absurd rfl h, .inl rfl⟩
  by_cases hc : c.val < P.nctx
  · cases i <;> simp only [contextOf, Option.some.injEq, reduceCtorEq] at hi <;> subst hi <;> rw [effect]
    case ninit c => rw [needleInit, onContext_in hc]; exact ctx _
    case nsett c q =>
      obtain ⟨-, -, h⟩ | h := onRegistered_cases P c s _ <;> rw [setTarget, h]
      · split
        · exact same
        · exact ctx _
      · exact same
    case ngetp c =>
      rw [readQuantity, onContext_in hc]
      exact ⟨s.needle c, _, s.trace, by rw [State.setCtx_same]; rfl, fun _ => rfl, .inl rfl⟩
    case nstart c =>
      obtain ⟨-, -, h⟩ | h := onRegistered_cases P c s _ <;> rw [setNeedleEnable, h]
      · exact ctx _
      · exact same
    case nstop c =>
      obtain ⟨-, -, h⟩ | h := onRegistered_cases P c s _ <;> rw [setNeedleEnable, h]
      · exact ctx _
      · exact same
    case ntask c =>
      obtain h | ⟨-, -, -, -, -, h⟩ | ⟨-, -, -, -, -, h⟩ := needleTask_cases P c s <;> rw [h]
      · exact same
      · exact ctx _
      · exact ⟨_, s.rsp, _, rfl, fun h => absurd rfl h, .inr ⟨rfl, rfl⟩⟩
  · rw [effect_context_out hi hc]; exact same

end Sys2Proof.Machine
end

