-- ==== Sys2Proof/Tests/Slice0.lean ====
section
/-! SUPPORT. Tests of the model. Expected values are those of spec/95_test_vectors.md, named by their numbers there
(E encodings, T commutation, K tick, M needle, P power), evaluated at the parameter set VSET; then the witnesses that
the hypotheses of the obligations can be met. -/

namespace Sys2Proof.Tests

open Sys2Proof Sys2Proof.Machine

/-! ### Well-formedness (30_encoding.md rules R103, R112) -/

theorem test_wellFormed_quantity_too_large : (Instr.nsett 0 8388608).wellFormed = false := by decide

theorem test_wellFormed_quantity_too_small : (Instr.nsett 0 (-8388609)).wellFormed = false := by decide

theorem test_wellFormed_quantity_limits :
    (Instr.nsett 0 8388607).wellFormed = true ∧ (Instr.nsett 0 (-8388608)).wellFormed = true := by decide

/-! ### Decoding and encoding: the words of E1 to E26 -/

/-- E1, E22 (its reserved bits on `NOP`: E26), E2, E3. -/
theorem test_decode_without_operand :
    decode 0x00000000 = .ok .nop ∧ decode 0x03FFFFFF = .ok .nop ∧ decode 0x04000000 = .ok .tinit ∧
    decode 0x08000000 = .ok .ttask ∧ decode 0x0BFFFFFF = .ok .ttask ∧ decode 0x40000000 = .ok .msinit ∧
    decode 0x44000000 = .ok .mspwr := by decide

/-- E4, E6, E7, E8, E9, E10. -/
theorem test_decode_unsigned :
    decode 0x0C00003C = .ok (.spdw 60) ∧ decode 0x0CFFFFFF = .ok (.spdw 16777215) ∧
    decode 0x2000000A = .ok (.ldarg 0 10) ∧ decode 0x21000014 = .ok (.ldarg 1 20) ∧
    decode 0x22000003 = .ok (.ldarg 2 3) ∧ decode 0x230009C4 = .ok (.ldarg 3 2500) := by decide

/-- E12 to E15, and the most negative immediate of M16. -/
theorem test_decode_signed :
    decode 0x2800000A = .ok (.nsett 0 10) ∧ decode 0x28FFFFFD = .ok (.nsett 0 (-3)) ∧
    decode 0x29FFFFFF = .ok (.nsett 1 (-1)) ∧ decode 0x29800000 = .ok (.nsett 1 (-8388608)) := by decide

/-- E11, E16 to E19, E25. -/
theorem test_decode_context :
    decode 0x25000000 = .ok (.ninit 1) ∧ decode 0x2D000000 = .ok (.ngetp 1) ∧ decode 0x2E000000 = .ok (.ngetp 2) ∧
    decode 0x31000000 = .ok (.nstart 1) ∧ decode 0x35000000 = .ok (.nstop 1) ∧ decode 0x39000000 = .ok (.ntask 1) := by
  decide

/-- The first and last opcode of each reserved range (R109); E23 and E24 among them. -/
theorem test_decode_reserved :
    decode 0x10000000 = .error (.reservedOpcode 0x04) ∧ decode 0x1C000000 = .error (.reservedOpcode 0x07) ∧
    decode 0x3C000000 = .error (.reservedOpcode 0x0F) ∧ decode 0x48000000 = .error (.reservedOpcode 0x12) ∧
    decode 0xFFFFFFFF = .error (.reservedOpcode 0x3F) := by decide

/-- The byte order of the note before section 1 of 95_test_vectors.md. -/
theorem test_decodeBytes :
    decodeBytes [0x3C, 0x00, 0x00, 0x0C, 0xAA] = .ok (.spdw 60, [0xAA]) ∧
    decodeBytes [0x3C, 0x00, 0x00] = .error .truncated := by decide

/-- E4, E10, E13, E19, E21 the other way. -/
theorem test_encode :
    encode (.spdw 60) = 0x0C00003C ∧ encode (.ldarg 3 2500) = 0x230009C4 ∧ encode (.nsett 0 (-3)) = 0x28FFFFFD ∧
    encode (.ntask 1) = 0x39000000 ∧ encode .mspwr = 0x44000000 := by decide

/-! ### Small states, at VSET -/

/-- The reset state at VSET with the fields section 3 of 95_test_vectors.md writes in this order. -/
def tchState (st : CommutationState) (out : Lines) (run : Bool) (del : U24) (acc : U32) (elapsed : Bool) (speed : U24) :
    State :=
  { State.resetWith Params.vset with
    tchState := st, tchOut := out, tmrRun := run, tmrDelay := del, tmrAcc := acc, tmrElapsed := elapsed,
    tchSpeed := speed }

/-- A registered context with the scale Q to S, at a position. -/
def scaled (Q S cur : U24) : NeedleContext :=
  { NeedleContext.resetWith Params.vset with init := true, maxQ := Q, maxSteps := S, cur := cur }

/-- The context of vectors M30 to M41, with the fields section 4 writes in this order. -/
def moving (enable : Bool) (cur tgt cnt period : U24) (dir : Bool) : NeedleContext where
  init := true
  maxQ := 10
  maxSteps := 20
  inertia := 3
  periodMin := 4
  enable := enable
  tgt := tgt
  cur := cur
  cnt := cnt
  period := period
  dir := dir

/-- The reset state at VSET with one context. -/
def withContext (c : Sel) (x : NeedleContext) : State := (State.resetWith Params.vset).setCtx c x

/-- What a command makes of a state at VSET. -/
def run (i : Instr) (s : State) : State := effect Params.vset i s

/-! ### Commutation Drive -/

/-- T10. -/
theorem test_tinit :
    run .tinit (tchState (.sector .step3) 0x1C true 750 300 false 80) =
      { tchState .off 0 false 0 0 false 0 with tchOe := true } := by decide

/-- T2, T3, T4: the threshold is inclusive, and the table index is clamped. -/
theorem test_ttask_off :
    run .ttask (tchState .off 0 false 0 0 false 5) = tchState (.sector .step1) 0x07 true 12000 0 false 5 ∧
    run .ttask (tchState .off 0 false 0 0 false 4) = tchState .off 0 false 0 0 false 4 ∧
    run .ttask (tchState .off 0 false 0 0 false 16777215) =
      tchState (.sector .step1) 0x07 true 402 0 false 16777215 := by decide

/-- T6, T7, T8, T9: the stop outranks the advance, the wrap, the dwell, the unrecognized state. -/
theorem test_ttask_sector :
    run .ttask (tchState (.sector .step4) 0x0D true 1000 1000 true 3) = tchState .off 0 false 1000 1000 true 3 ∧
    run .ttask (tchState (.sector .step6) 0x34 true 1000 1000 true 120) =
      tchState (.sector .step1) 0x07 true 500 0 false 120 ∧
    run .ttask (tchState (.sector .step2) 0x13 true 1000 400 false 60) =
      tchState (.sector .step2) 0x13 true 1000 400 false 60 ∧
    run .ttask (tchState .unrecognized 0x2A true 1000 1000 true 0) =
      tchState .unrecognized 0x2A true 1000 1000 true 0 := by decide

/-- T11. -/
theorem test_spdw :
    run (.spdw 120) (tchState (.sector .step1) 0x07 true 1000 0 false 60) =
      tchState (.sector .step1) 0x07 true 1000 0 false 120 := by decide

/-! ### The tick -/

/-- K2, K8, K5: the flag comes with the first sum not below the delay. -/
theorem test_tick_elapses :
    tickEvent Params.vset (tchState .off 0 true 750 700 false 0) =
      { tchState .off 0 true 750 800 true 0 with tickCount := 1 } ∧
    tickEvent Params.vset (tchState .off 0 true 1000 900 false 0) =
      { tchState .off 0 true 1000 1000 true 0 with tickCount := 1 } ∧
    tickEvent Params.vset (tchState .off 0 true 0 0 false 0) =
      { tchState .off 0 true 0 100 true 0 with tickCount := 1 } := by decide

/-- K3, K6, K7: an elapsed and a stopped timer hold; the count wraps. -/
theorem test_tick_holds :
    tickEvent Params.vset (tchState .off 0 true 750 800 true 0) =
      { tchState .off 0 true 750 800 true 0 with tickCount := 1 } ∧
    tickEvent Params.vset { tchState .off 0 false 1000 300 false 0 with tickCount := 0xFFFFFFFF } =
      tchState .off 0 false 1000 300 false 0 := by decide

/-! ### Needle contexts -/

/-- The staging registers of program C, loaded in E10. -/
theorem test_ldarg :
    run (.ldarg 3 2500) { State.resetWith Params.vset with arg := #v[10, 20, 3, 7] } =
      { State.resetWith Params.vset with arg := #v[10, 20, 3, 2500] } := by decide

/-- M41: an initialisation in mid-move. -/
theorem test_ninit :
    run (.ninit 0) { withContext 0 (moving true 5 20 2 4 true) with arg := #v[10, 20, 3, 2500] } =
      { withContext 0 (moving false 0 0 0 8 false) with arg := #v[10, 20, 3, 2500] } := by decide

/-- M1 to M9, and the no-op on a context that VSET lacks (R108). -/
theorem test_ninit_periodMin :
    [0, 1, 1250, 1429, 2000, 2500, 3333, 10000, 20000].map (periodMin Params.vset) =
      [8, 8, 8, 7, 5, 4, 4, 1, 1] ∧
    run (.ninit 2) (withContext 2 (scaled 1 2 0)) = withContext 2 (scaled 1 2 0) := by decide

/-- M12, M14 to M17 on the scale 100 to 400, M18 to M21 on 400 to 100. -/
theorem test_nsett :
    [37, 101, -1, -8388608, 8388607].map
      (fun q => ((run (.nsett 1 q) (withContext 1 (scaled 100 400 0))).needle 1).tgt.toNat) = [148, 400, 0, 0, 400] ∧
    [1, 2, 199, 202].map
      (fun q => ((run (.nsett 1 q) (withContext 1 (scaled 400 100 0))).needle 1).tgt.toNat) = [0, 1, 50, 51] := by
  decide

/-- M40, and M22: without a scale the target stays. -/
theorem test_nsett_keeps :
    run (.nsett 0 1) (withContext 0 (moving true 5 20 2 4 true)) = withContext 0 (moving true 5 2 2 4 true) ∧
    run (.nsett 0 5) (withContext 0 (scaled 0 20 0)) = withContext 0 (scaled 0 20 0) := by decide

/-- The read-backs of M12, of M19 to M21, and of M23. -/
theorem test_ngetp :
    (run (.ngetp 0) (withContext 0 (scaled 100 400 148))).rsp.toNat = 37 ∧
    [1, 50, 51].map (fun n => (run (.ngetp 0) (withContext 0 (scaled 400 100 n))).rsp.toNat) = [4, 200, 204] ∧
    (run (.ngetp 0) { withContext 0 (scaled 10 0 0) with rsp := 77 }).rsp.toNat = 0 := by decide

/-- E25: a context that VSET lacks leaves the response as it is; M24: an unregistered one reports 0. -/
theorem test_ngetp_inert :
    (run (.ngetp 2) { State.resetWith Params.vset with rsp := 77 }).rsp = 77 ∧
    (run (.ngetp 1) { State.resetWith Params.vset with rsp := 77 }).rsp = 0 := by decide

/-- M39, and R37 on a context not registered. -/
theorem test_nstart :
    run (.nstart 0) (withContext 0 (moving false 5 20 2 4 true)) = withContext 0 (moving true 5 20 2 4 true) ∧
    run (.nstart 1) (State.resetWith Params.vset) = State.resetWith Params.vset := by decide

/-- M38. -/
theorem test_nstop :
    run (.nstop 0) (withContext 0 (moving true 5 20 2 4 true)) = withContext 0 (moving false 5 20 2 4 true) := by decide

/-- M31, M33, M36: a step up, one within the inertia allowance, a step down. -/
theorem test_ntask_steps :
    run (.ntask 0) (withContext 0 (moving true 0 20 7 8 false)) =
      { withContext 0 (moving true 1 20 0 7 true) with trace := [.stepPulse 0 true] } ∧
    run (.ntask 0) (withContext 0 (moving true 16 20 3 4 true)) =
      { withContext 0 (moving true 17 20 0 5 true) with trace := [.stepPulse 0 true] } ∧
    run (.ntask 0) (withContext 0 (moving true 5 2 3 4 true)) =
      { withContext 0 (moving true 4 2 0 5 false) with trace := [.stepPulse 0 false] } := by decide

/-- M30, M35, M37: counting, idle, disabled. -/
theorem test_ntask_no_step :
    run (.ntask 0) (withContext 0 (moving true 0 20 0 8 false)) = withContext 0 (moving true 0 20 1 8 false) ∧
    run (.ntask 0) (withContext 0 (moving true 20 20 0 8 true)) = withContext 0 (moving true 20 20 0 8 true) ∧
    run (.ntask 0) (withContext 0 (moving false 5 20 2 4 true)) = withContext 0 (moving false 5 20 2 4 true) := by
  decide

/-- Values of the linear law in section 4, PERIOD_INIT 8, the last two with the minimum 8 and the inertia 0. -/
theorem test_linearRamp :
    [(8, 19), (5, 15), (4, 10), (4, 4), (4, 3), (7, 0), (8, 0)].map
      (fun v => (linearRamp 1 v.1 v.2 3 4 8).toNat) = [7, 4, 4, 4, 5, 8, 8] ∧
    (linearRamp 1 8 5 0 8 8).toNat = 8 ∧ (linearRamp 1 6 0 0 4 8).toNat = 7 := by decide

/-- R11: before `NINIT` the lines of a context are not driven; M36 puts its pulse on its own line only. -/
theorem test_pins :
    (State.resetWith Params.vset).stepPin Params.vset 0 = none ∧
    (run (.ntask 0) (withContext 0 (moving true 5 2 3 4 true))).stepPin Params.vset 0 = some [false] ∧
    (run (.ntask 0) (withContext 0 (moving true 5 2 3 4 true))).dirPin Params.vset 0 = some false ∧
    (run (.ntask 0) (withContext 0 (moving true 5 2 3 4 true))).stepPulses 1 = [] := by decide

/-! ### Power and no-operation -/

/-- P4. -/
theorem test_msinit :
    run .msinit { withContext 0 (moving true 0 0 0 8 false) with msOe := true, msPwr := true } =
      { withContext 0 (moving true 0 0 0 8 false) with msOe := true, msPwr := false } := by decide

/-- P5 and P3. -/
theorem test_mspwr :
    run .mspwr (withContext 0 (moving true 0 0 0 8 false)) =
      { withContext 0 (moving true 0 0 0 8 false) with msPwr := true } ∧
    (run .mspwr { withContext 0 (moving false 0 0 0 8 false) with msOe := true, msPwr := true }).msPwr = false := by
  decide

/-- E1 in mid-move. -/
theorem test_nop : run .nop (withContext 0 (moving true 5 20 2 4 true)) = withContext 0 (moving true 5 20 2 4 true) := by
  decide

/-! ### Steps -/

/-- The first command after reset (E4). -/
theorem test_step_spdw :
    step (State.reset.withFetchWord 32 0x0C00003C) = .next { State.reset with tchSpeed := 60 } := rfl

/-- A reserved opcode (E24) and a waiting block. -/
theorem test_step_nothing :
    step (State.reset.withFetchWord 32 0xFFFFFFFF) = .next State.reset ∧ step State.reset = .next State.reset :=
  ⟨rfl, rfl⟩

/-- R229: the tick comes first, so the `TTASK` strobed with it sees the flag the tick has set. -/
theorem test_step_tick_before_command :
    (stepEffect Params.vset (stepEffect Params.vset
      { tchState (.sector .step1) 0x07 true 1000 900 false 60 with inputs := [.tickCmd 0x08000000] })).tchState =
      .sector .step2 := by decide

/-- R260: the strobe `rst` in mid-move. -/
theorem test_step_rst :
    stepEffect Params.vset { withContext 0 (moving true 5 20 2 4 true) with inputs := [.rst], tickCount := 9 } =
      State.resetWith Params.vset := by decide

/-! ### Witnesses: the hypotheses of the obligations can be met

One theorem per obligation that has hypotheses, `witness_<Obligation>`, with one conjunct per clause. The parameters of
the block are opaque, so the states are built from them; a clause about an index not below `NCTX` is witnessed at VSET,
which has two contexts. -/

/-- The reset state with strobes waiting. -/
def waiting (l : List Input) : State := State.reset.setInputs l

/-- The reset state with context 0 as given. -/
def at0 (x : NeedleContext) : State := State.reset.setCtx 0 x

@[simp] theorem at0_needle (x : NeedleContext) : (at0 x).needle 0 = x := by simp [at0]

theorem zero_lt_nctx : (0 : Sel).val < Config.params.nctx := Config.params.nctx_range.1

/-- A registered needle of 20 steps at step 0, at the starting period. -/
def idle (enable : Bool) (tgt cnt : U24) : NeedleContext :=
  { NeedleContext.resetWith Config.params with
    init := true, maxQ := 10, maxSteps := 20, inertia := 3, enable := enable, tgt := tgt, cnt := cnt }

/-- The count at which the next `NTASK` steps. -/
def lastCount : U24 := Config.params.periodInit - 1

theorem lastCount_toNat : lastCount.toNat + 1 = Config.params.periodInit.toNat := by
  have := Config.params.periodInit_pos
  have := Config.params.periodInit.isLt
  unfold lastCount
  rw [BitVec.toNat_sub, show (1 : U24).toNat = 1 from rfl]
  omega

/-- The drive engaged at the threshold speed. -/
def engaged : State := effect Config.params .ttask { State.reset with tchSpeed := BitVec.ofNat 24 Config.params.speedMin }

theorem speedMin_toNat : (BitVec.ofNat 24 Config.params.speedMin).toNat = Config.params.speedMin := by
  have := Config.params.speedMin_range
  have := Config.params.speedMax_lt
  simp only [BitVec.toNat_ofNat]; omega

theorem witness_ResetPutsEveryFieldAtItsValue :
    (∃ t s rest, s.inputs = Input.rst :: rest ∧ step s = .next t) ∧ (0 : Sel).val < Config.params.nctx :=
  ⟨⟨_, waiting [.rst], [], rfl, rfl⟩, zero_lt_nctx⟩

theorem witness_StepRunsTheDecodedCommand :
    (waiting [.cmd 0x0C00003C]).inputs = [.cmd 0x0C00003C] ∧ decode 0x0C00003C = .ok (.spdw 60) := ⟨rfl, by decide⟩

/-- At the ends of each of the three ranges. -/
theorem witness_ReservedOpcodeDoesNothing :
    ∀ w ∈ ([0x10000000, 0x1C000000, 0x3C000000, 0x48000000, 0xFFFFFFFF] : List CmdWord),
      (waiting [.cmd w]).inputs = [.cmd w] ∧
      ((0x04 ≤ (w.extractLsb' 26 6).toNat ∧ (w.extractLsb' 26 6).toNat ≤ 0x07) ∨ (w.extractLsb' 26 6).toNat = 0x0F ∨
        0x12 ≤ (w.extractLsb' 26 6).toNat) :=
  fun w hw => ⟨rfl, by
    simp only [List.mem_cons, List.not_mem_nil, or_false] at hw
    rcases hw with rfl | rfl | rfl | rfl | rfl <;> decide⟩

theorem witness_SimultaneousTickActsBeforeCommand :
    (waiting [.tickCmd 0x08000000]).inputs = [.tickCmd 0x08000000] := rfl

theorem witness_WaitingBlockHoldsItsState :
    State.reset.inputs = [] ∧ (waiting [.rst, .tick]).inputs = [.rst, .tick] := ⟨rfl, rfl⟩

theorem witness_DecodeUndoesEncode :
    (Instr.nsett 3 (-8388608)).wellFormed = true ∧ (Instr.ldarg 3 16777215).wellFormed = true := by decide

/-- Both sides of every edge of the reserved ranges. -/
theorem witness_DecodingIsTotal :
    (∀ o ∈ ([0x04, 0x07, 0x0F, 0x12, 0x3F] : List Nat), (0x04 ≤ o ∧ o ≤ 0x07) ∨ o = 0x0F ∨ 0x12 ≤ o) ∧
    ∀ o ∈ ([0x00, 0x03, 0x08, 0x0E, 0x10, 0x11] : List Nat), ¬((0x04 ≤ o ∧ o ≤ 0x07) ∨ o = 0x0F ∨ 0x12 ≤ o) := by decide

/-- E22. -/
theorem witness_ReservedFieldsAreIgnored :
    decode 0x0BFFFFFF = .ok .ttask ∧
    (0x08000001 : CmdWord) &&& usedBits .ttask = (0x0BFFFFFF : CmdWord) &&& usedBits .ttask := by decide

theorem witness_ImmediatesAndSelectorsAreAssembled :
    (0x0C00003C : CmdWord).extractLsb' 26 6 = 0x03 ∧ (0x230009C4 : CmdWord).extractLsb' 26 6 = 0x08 ∧
    (0x29800000 : CmdWord).extractLsb' 26 6 = 0x0A := by decide

/-- A timer that counts, at the sum that just reaches its delay and at one short of it, and one that holds. -/
theorem witness_TickAdvancesCountAndTimer :
    (∃ s : State, s.inputs = [.tick] ∧ s.tmrRun = true ∧ s.tmrElapsed = false ∧
      s.tmrAcc.toNat + Config.params.tickUs < 2 ^ 32 ∧ s.tmrDelay.toNat = s.tmrAcc.toNat + Config.params.tickUs) ∧
    (∃ s : State, s.inputs = [.tick] ∧ s.tmrRun = true ∧ s.tmrElapsed = false ∧
      s.tmrAcc.toNat + Config.params.tickUs < 2 ^ 32 ∧ s.tmrDelay.toNat = s.tmrAcc.toNat + Config.params.tickUs + 1) ∧
    ∃ s : State, s.inputs = [.tick] ∧ ¬(s.tmrRun = true ∧ s.tmrElapsed = false) := by
  have h := Config.params.tickUs_range
  have z : (0 : U32).toNat = 0 := rfl
  refine ⟨⟨{ waiting [.tick] with tmrRun := true, tmrAcc := 0, tmrDelay := BitVec.ofNat 24 Config.params.tickUs }, rfl,
      rfl, rfl, ?_, ?_⟩,
    ⟨{ waiting [.tick] with tmrRun := true, tmrAcc := 0, tmrDelay := BitVec.ofNat 24 (Config.params.tickUs + 1) }, rfl,
      rfl, rfl, ?_, ?_⟩, waiting [.tick], rfl, by simp [waiting, State.reset, State.resetWith]⟩ <;>
    simp only [z, BitVec.toNat_ofNat] <;> omega

/-- A loaded timer with one tick waiting. -/
theorem witness_TimerElapsesAtItsTick :
    ∃ s : State, s.tmrRun = true ∧ s.tmrElapsed = false ∧ s.tmrAcc = 0 ∧ s.inputs = List.replicate 1 .tick ++ [] :=
  ⟨{ waiting [.tick] with tmrRun := true }, rfl, rfl, rfl, rfl⟩

/-- A sector of no delay lasts one tick: before it (n = 0) and at it (n = 1). -/
theorem witness_DwellIsExactInTicks :
    ∀ n ∈ [0, 1], ∃ s : State, s.tchState = .sector .step1 ∧ s.tmrRun = true ∧ s.tmrElapsed = false ∧ s.tmrAcc = 0 ∧
      Config.params.speedMin ≤ s.tchSpeed.toNat ∧ s.inputs = tickThenTask n ++ [] ∧
      max 1 ⌈(s.tmrDelay.toNat : ℚ) / (Config.params.tickUs : ℚ)⌉₊ = 1 :=
  fun n _ => ⟨{ waiting (tickThenTask n) with
      tchState := .sector .step1, tmrRun := true, tchSpeed := BitVec.ofNat 24 Config.params.speedMin },
    rfl, rfl, rfl, rfl, speedMin_toNat.ge, (List.append_nil _).symm, by simp [waiting, State.reset, State.resetWith]⟩

/-- In OFF at the threshold and below it; in the last sector below it, and at it with the flag set and not set; in the
unrecognized state. -/
theorem witness_TtaskFollowsItsPseudocode :
    (∃ s : State, stateCode s.tchState = 0 ∧ Config.params.speedMin = s.tchSpeed.toNat) ∧
    (∃ s : State, stateCode s.tchState = 0 ∧ ¬ Config.params.speedMin ≤ s.tchSpeed.toNat) ∧
    (∃ s : State, s.tchState = .sector .step6 ∧ s.tchSpeed.toNat < Config.params.speedMin) ∧
    (∀ b, ∃ s : State, s.tchState = .sector .step6 ∧ ¬ s.tchSpeed.toNat < Config.params.speedMin ∧ s.tmrElapsed = b) ∧
    ∃ s : State, stateCode s.tchState = 7 :=
  ⟨⟨{ State.reset with tchSpeed := BitVec.ofNat 24 Config.params.speedMin }, rfl, speedMin_toNat.symm⟩,
    ⟨State.reset, rfl, Nat.not_le.2 Config.params.speedMin_range.1⟩,
    ⟨{ State.reset with tchState := .sector .step6 }, rfl, Config.params.speedMin_range.1⟩,
    fun b => ⟨{ State.reset with
        tchState := .sector .step6, tchSpeed := BitVec.ofNat 24 Config.params.speedMin, tmrElapsed := b },
      rfl, Nat.not_lt.2 speedMin_toNat.ge, rfl⟩,
    { State.reset with tchState := .unrecognized }, rfl⟩

/-- A state with code 7 that `TINIT` leaves, and a state without that code. -/
theorem witness_UnrecognizedStateIsInert :
    (∃ s t : State, stateCode s.tchState = 7 ∧ step s = .next t ∧ stateCode t.tchState ≠ 7) ∧
    ∃ s t : State, stateCode s.tchState ≠ 7 ∧ step s = .next t :=
  ⟨⟨{ waiting [.cmd 0x04000000] with tchState := .unrecognized }, _, rfl, rfl, by decide⟩,
    ⟨State.reset, _, by decide, rfl⟩⟩

theorem witness_StopWithinOneInvocation :
    ∃ s : State, stateCode s.tchState = 6 ∧ s.tchSpeed.toNat < Config.params.speedMin :=
  ⟨{ State.reset with tchState := .sector .step6 }, rfl, Config.params.speedMin_range.1⟩

/-- Steps that change the state: a reset and an initialisation of a turning drive. -/
theorem witness_CommutationTransitions :
    ∀ x ∈ [Input.rst, Input.cmd 0x04000000], ∃ t,
      step { waiting [x] with tchState := .sector .step3 } = .next t ∧ t.tchState ≠ .sector .step3 := by
  intro x hx
  simp only [List.mem_cons, List.not_mem_nil, or_false] at hx
  rcases hx with rfl | rfl <;> exact ⟨_, rfl, by decide⟩

/-- The other ways: engage, stop, advance, wrap, at VSET (T2, T6, T7 and the flag set in STEP5). -/
theorem witness_CommutationTransitions_ways :
    stateCode (run .ttask (tchState .off 0 false 0 0 false 5)).tchState = 1 ∧
    stateCode (run .ttask (tchState (.sector .step4) 0x0D true 1000 1000 true 3)).tchState = 0 ∧
    stateCode (run .ttask (tchState (.sector .step5) 0x31 true 1000 1000 true 60)).tchState = 6 ∧
    stateCode (run .ttask (tchState (.sector .step6) 0x34 true 1000 1000 true 120)).tchState = 1 := by decide

theorem engaged_eq :
    engaged = { State.reset with
      tchSpeed := BitVec.ofNat 24 Config.params.speedMin, tmrRun := true,
      tmrDelay := delay Config.params (BitVec.ofNat 24 Config.params.speedMin), tchState := .sector .step1,
      tchOut := Config.params.pattern .step1 } :=
  if_pos speedMin_toNat.ge

theorem engaged_inv : TchInvariant Config.params engaged := by
  rw [engaged_eq]
  have ht := Config.params.tickUs_range.1
  constructor <;> simp [State.reset, State.resetWith, pat, delay_engaged Config.params speedMin_toNat.ge]

theorem witness_SpeedChangeKeepsTheRunningDwell :
    TchInvariant Config.params engaged ∧ engaged.tchState = .sector .step1 ∧ engaged.tmrElapsed = false ∧
    Config.params.speedMin ≤ (BitVec.ofNat 24 Config.params.speedMin).toNat :=
  ⟨engaged_inv, by rw [engaged_eq], by rw [engaged_eq]; rfl, speedMin_toNat.ge⟩

theorem witness_SixDistinctPatternsInACycle :
    Config.params.pattern (nextSector^[5] .step2) = Config.params.pattern (nextSector^[5] .step2) ∧ 5 < 6 :=
  ⟨rfl, by decide⟩

theorem witness_LdargLoadsOneRegister : (0 : Sel) ≠ 3 := by decide

/-- Context 0 exists; context 2 does not at VSET. -/
theorem witness_NinitInitialisesItsContext :
    (0 : Sel).val < Config.params.nctx ∧ ¬ (2 : Sel).val < Params.vset.nctx ∧ State.reset.argAt 3 = 0 ∧
    (State.reset.setArg 3 1).argAt 3 ≠ 0 := ⟨zero_lt_nctx, by decide, by decide, by decide⟩

/-- A speed that PERIOD_INIT does not cap, for any parameters; and at VSET the largest ceiling that equals PERIOD_INIT
(M3). -/
theorem witness_MinimumPeriodBoundsTheSpeed :
    (∃ t, exec (.ninit 0) (State.reset.setArg 3 1000000) = .next t) ∧ (0 : Sel).val < Config.params.nctx ∧
    1000000 ≤ Config.params.periodInit.toNat * Config.params.tickUs * ((State.reset.setArg 3 1000000).argAt 3).toNat ∧
    1000000 ≤ Params.vset.periodInit.toNat * Params.vset.tickUs * (1250 : U24).toNat ∧
    periodMin Params.vset 1250 = Params.vset.periodInit := by
  refine ⟨⟨_, rfl⟩, zero_lt_nctx, ?_, by decide, by decide⟩
  rw [show ((State.reset.setArg 3 1000000).argAt 3).toNat = 1000000 by decide]
  exact Nat.le_mul_of_pos_left _ (Nat.mul_pos Config.params.periodInit_pos Config.params.tickUs_range.1)

theorem witness_NsettStoresTheRoundedTarget :
    ((0 : Sel).val < Config.params.nctx ∧ ((at0 (idle false 0 0)).needle 0).init = true ∧
      ((at0 (idle false 0 0)).needle 0).maxQ ≠ 0) ∧ (State.reset.needle 0).init = false := by
  refine ⟨⟨zero_lt_nctx, ?_, ?_⟩, ?_⟩
  · rw [at0_needle]; rfl
  · rw [at0_needle]; decide
  · rw [State.reset, State.needle_resetWith]; rfl

/-- A registered context with a scale and one without a registration. -/
theorem witness_NgetpReportsTheRoundedQuantity :
    (((at0 (idle false 0 0)).needle 0).cur.toNat ≤ ((at0 (idle false 0 0)).needle 0).maxSteps.toNat ∧
      ¬(((at0 (idle false 0 0)).needle 0).init = false ∨ ((at0 (idle false 0 0)).needle 0).maxSteps = 0)) ∧
    (State.reset.needle 0).cur.toNat ≤ (State.reset.needle 0).maxSteps.toNat ∧
    (State.reset.needle 0).init = false := by
  rw [at0_needle, State.reset, State.needle_resetWith]
  simp [idle, NeedleContext.resetWith]

/-- The needle that has reached the target moved, so its direction is not that of before. -/
theorem witness_QuantityRoundTrip :
    (0 : Sel).val < Config.params.nctx ∧ ((at0 (idle true 0 0)).needle 0).init = true ∧
    1 ≤ ((at0 (idle true 0 0)).needle 0).maxQ.toNat ∧ 1 ≤ ((at0 (idle true 0 0)).needle 0).maxSteps.toNat ∧
    (0 : Int) ≤ 10 ∧ (10 : Int) ≤ ((at0 (idle true 0 0)).needle 0).maxQ.toNat ∧
    ((at0 (idle true 0 0)).needle 0).maxQ.toNat ≤ ((at0 (idle true 0 0)).needle 0).maxSteps.toNat ∧
    ∃ t u, exec (.nsett 0 10) (at0 (idle true 0 0)) = .next t ∧ (State.needle u 0).init = (t.needle 0).init ∧
      (u.needle 0).maxQ = (t.needle 0).maxQ ∧ (u.needle 0).maxSteps = (t.needle 0).maxSteps ∧
      (u.needle 0).tgt = (t.needle 0).tgt ∧ (u.needle 0).cur = (u.needle 0).tgt ∧
      (u.needle 0).dir ≠ (t.needle 0).dir := by
  have ht : (setTarget Config.params 0 10 (at0 (idle true 0 0))).needle 0 = idle true 20 0 := by
    rw [setTarget_in 10 zero_lt_nctx (by rw [at0_needle]; rfl) (by rw [at0_needle]; decide), State.needle_setCtx_self,
      at0_needle]
    rfl
  rw [at0_needle]
  refine ⟨zero_lt_nctx, rfl, by decide, by decide, by decide, by decide, by decide, _,
    at0 { idle true 20 0 with cur := 20, dir := true }, rfl, ?_⟩
  rw [ht, at0_needle]
  exact ⟨rfl, rfl, rfl, rfl, rfl, by decide⟩

/-- Registered and not. -/
theorem witness_NstartSetsTheEnableFlag :
    ((0 : Sel).val < Config.params.nctx ∧ ((at0 (idle false 0 0)).needle 0).init = true) ∧
    (State.reset.needle 0).init = false := by
  rw [at0_needle, State.reset, State.needle_resetWith]; exact ⟨⟨zero_lt_nctx, rfl⟩, rfl⟩

theorem witness_NstopClearsTheEnableFlag :
    ((0 : Sel).val < Config.params.nctx ∧ ((at0 (idle true 0 0)).needle 0).init = true) ∧
    (State.reset.needle 0).init = false := by
  rw [at0_needle, State.reset, State.needle_resetWith]; exact ⟨⟨zero_lt_nctx, rfl⟩, rfl⟩

/-- A needle stopped in mid-move and asked to move three times. -/
theorem witness_StopFreezesAndStartResumes :
    ∃ s : State, (0 : Sel).val < Config.params.nctx ∧ (s.needle 0).init = true ∧ (s.needle 0).enable = true ∧
      (s.needle 0).cur ≠ (s.needle 0).tgt ∧
      s.inputs = .cmd (encode (.nstop 0)) :: (List.replicate 3 (.cmd (encode (.ntask 0))) ++
        [.cmd (encode (.nstart 0))]) := by
  refine ⟨(at0 (idle true 20 lastCount)).setInputs _, zero_lt_nctx, ?_, ?_, ?_, rfl⟩ <;>
    rw [State.needle_setInputs, at0_needle]
  · rfl
  · rfl
  · decide

/-- Not registered; disabled; at its target. -/
theorem witness_NtaskDisabledOrIdleDoesNothing :
    (State.reset.needle 0).init = false ∧ ((at0 (idle false 20 0)).needle 0).enable = false ∧
    ((at0 (idle true 0 0)).needle 0).cur = ((at0 (idle true 0 0)).needle 0).tgt := by
  rw [at0_needle, at0_needle, State.reset, State.needle_resetWith]; exact ⟨rfl, rfl, rfl⟩

/-- The needle about to step does. -/
theorem task_steps {s : State} {tgt : U24} (hs : s.needle 0 = idle true tgt lastCount) (ht : (0 : U24) ≠ tgt) :
    needleTask Config.params 0 s = stepNeedle Config.params 0 (idle true tgt lastCount) s := by
  rw [needleTask_moving zero_lt_nctx (by rw [hs]; rfl) (by rw [hs]; rfl) (by rw [hs]; exact ht), hs]
  exact if_neg (Nat.not_lt.2 lastCount_toNat.ge)

/-- A context about to step, and, at VSET (M30), one that counts. -/
theorem witness_NtaskCountsOrSteps :
    (∃ s : State, (0 : Sel).val < Config.params.nctx ∧ (s.needle 0).init = true ∧ (s.needle 0).enable = true ∧
      (s.needle 0).cur ≠ (s.needle 0).tgt ∧ ¬ (s.needle 0).cnt.toNat + 1 < (s.needle 0).period.toNat) ∧
    ∃ x : NeedleContext, x = moving true 0 20 0 8 false ∧ x.init = true ∧ x.enable = true ∧ x.cur ≠ x.tgt ∧
      x.cnt.toNat + 1 < x.period.toNat := by
  refine ⟨⟨at0 (idle true 20 lastCount), zero_lt_nctx, ?_⟩, _, rfl, by decide⟩
  rw [at0_needle]
  exact ⟨rfl, rfl, by decide, Nat.not_lt.2 lastCount_toNat.ge⟩

theorem idle_inv (enable : Bool) {tgt cnt : U24} (ht : tgt.toNat ≤ 20) (hc : cnt.toNat < Config.params.periodInit.toNat) :
    NeedleInvariant Config.params (idle enable tgt cnt) where
  curInScale := Nat.zero_le _
  tgtInScale := ht
  periodMinPos := Config.params.periodInit_pos
  periodMinLe := le_refl _
  periodLe := le_refl _
  counting := hc
  enabledRegistered := fun _ => rfl
  unregistered := nofun

/-- A context about to step meets the invariant; with target 20 more than the inertia allowance then remains, with
target 1 nothing does. -/
theorem witness_PeriodFollowsTheRampContract :
    ∀ v ∈ ([(20, 19), (1, 0)] : List (U24 × Nat)), ∃ t, (0 : Sel).val < Config.params.nctx ∧
      NeedleInvariant Config.params ((at0 (idle true v.1 lastCount)).needle 0) ∧
      exec (.ntask 0) (at0 (idle true v.1 lastCount)) = .next t ∧
      (t.needle 0).cur ≠ ((at0 (idle true v.1 lastCount)).needle 0).cur ∧ (t.needle 0).remaining = v.2 := by
  intro v hv
  have hl := lastCount_toNat
  have hm : v.1 = 20 ∧ v.2 = 19 ∨ v.1 = 1 ∧ v.2 = 0 := by
    simp only [List.mem_cons, List.not_mem_nil, or_false] at hv
    rcases hv with rfl | rfl <;> simp
  have hn : (0 : U24) ≠ v.1 := by rcases hm with ⟨h, -⟩ | ⟨h, -⟩ <;> rw [h] <;> decide
  refine ⟨_, zero_lt_nctx, ?_, rfl, ?_⟩
  · rw [at0_needle]
    exact idle_inv true (by rcases hm with ⟨h, -⟩ | ⟨h, -⟩ <;> rw [h] <;> decide) (by omega)
  · rw [task_steps (at0_needle _) hn, at0_needle]
    rcases hm with ⟨h, h'⟩ | ⟨h, h'⟩ <;> rw [h, h'] <;>
      simp [stepNeedle, NeedleContext.remaining, NeedleContext.stepped, idle, NeedleContext.resetWith]

/-- A needle with one step to go and its `NTASK`s waiting. -/
theorem witness_NeedleArrivesWithoutOvershoot :
    ∃ (s : State) (n : Nat), (0 : Sel).val < Config.params.nctx ∧ NeedleInvariant Config.params (s.needle 0) ∧
      (s.needle 0).enable = true ∧ (s.needle 0).remaining = 1 ∧
      (s.needle 0).remaining * Config.params.periodInit.toNat ≤ n ∧
      s.inputs = List.replicate n (.cmd (encode (.ntask 0))) ++ [] := by
  refine ⟨(at0 (idle true 1 0)).setInputs _, Config.params.periodInit.toNat, zero_lt_nctx, ?_, ?_, ?_, ?_, rfl⟩ <;>
    rw [State.needle_setInputs, at0_needle]
  · exact idle_inv true (by decide) Config.params.periodInit_pos
  · rfl
  · decide
  · rw [show (idle true 1 0).remaining = 1 by decide, Nat.one_mul]

/-- A needle about to step, retargeted away from where it is. -/
theorem witness_RetargetRedirectsTheNextStep :
    ∃ s t : State, (0 : Sel).val < Config.params.nctx ∧ (s.needle 0).init = true ∧ (s.needle 0).enable = true ∧
      (s.needle 0).maxQ ≠ 0 ∧ exec (.nsett 0 10) s = .next t ∧
      (s.needle 0).period.toNat ≤ (s.needle 0).cnt.toNat + 1 ∧ (t.needle 0).tgt ≠ (s.needle 0).cur := by
  refine ⟨at0 (idle true 1 lastCount), _, zero_lt_nctx, ?_, ?_, ?_, rfl, ?_, ?_⟩
  · rw [at0_needle]; rfl
  · rw [at0_needle]; rfl
  · rw [at0_needle]; decide
  · rw [at0_needle]; exact lastCount_toNat.ge
  · rw [setTarget_in 10 zero_lt_nctx (by rw [at0_needle]; rfl) (by rw [at0_needle]; decide), State.needle_setCtx_self,
      at0_needle]
    decide

theorem witness_UnregisteredContextIsInert : (State.reset.needle 0).init = false := by
  rw [State.reset, State.needle_resetWith]; rfl

/-- `NGETP` clears the response of before. -/
theorem witness_OnlyExistingContextsAreTouched :
    contextOf (.ngetp 0) = some 0 ∧
    ∃ t, exec (.ngetp 0) { State.reset with rsp := 77 } = .next t ∧ t ≠ { State.reset with rsp := 77 } := by
  refine ⟨rfl, _, rfl, fun h => ?_⟩
  have hr := congrArg State.rsp h
  rw [readQuantity, onContext_in zero_lt_nctx] at hr
  exact absurd hr (by decide)

/-- Two states that agree on context 0, the staging registers, the response and the trace, and differ elsewhere. -/
theorem witness_ContextsDoNotInteract :
    ∃ s s' t t' : State, s ≠ s' ∧ contextOf (.ntask 0) = some 0 ∧ exec (.ntask 0) s = .next t ∧
      exec (.ntask 0) s' = .next t' ∧ s.needle 0 = s'.needle 0 ∧ s.arg = s'.arg ∧ s.rsp = s'.rsp ∧ s.trace = s'.trace :=
  ⟨State.reset, { State.reset with msPwr := true }, _, _, fun h => absurd (congrArg State.msPwr h) (by decide), rfl, rfl,
    rfl, rfl, rfl, rfl, rfl⟩

theorem witness_MspwrFollowsTheEnables :
    ∃ c : Sel, c.val < Config.params.nctx ∧ ((at0 (idle true 0 0)).needle c).init = true ∧
      ((at0 (idle true 0 0)).needle c).enable = true :=
  ⟨0, zero_lt_nctx, by rw [at0_needle]; exact ⟨rfl, rfl⟩⟩

theorem witness_InitCommandsDriveTheirPins : (0 : Sel).val < Config.params.nctx := zero_lt_nctx

/-- A command that changes each field: the staging register, the speed, the output enables, the response. -/
theorem witness_FieldsHaveOnlyTheirWriters :
    (∃ t, exec (.ldarg 3 1) State.reset = .next t ∧ t.arg ≠ State.reset.arg) ∧
    (∃ t, exec (.spdw 1) State.reset = .next t ∧ t.tchSpeed ≠ State.reset.tchSpeed) ∧
    (∃ t, exec .tinit State.reset = .next t ∧ t.tchOe ≠ State.reset.tchOe) ∧
    (∃ t, exec .msinit State.reset = .next t ∧ t.msOe ≠ State.reset.msOe) ∧
    (∃ t, exec .msinit { State.reset with msPwr := true } = .next t ∧ t.msPwr ≠ true) ∧
    (∃ t, exec .tinit { State.reset with tchState := .sector .step3 } = .next t ∧
      (t.tchState, t.tchOut, t.tmrRun, t.tmrDelay, t.tmrAcc, t.tmrElapsed) ≠ (.sector .step3, 0, false, 0, 0, false)) ∧
    (∃ t, exec (.ngetp 0) { State.reset with rsp := 77 } = .next t ∧ t.rsp ≠ 77) := by
  refine ⟨⟨_, rfl, by decide⟩, ⟨_, rfl, by decide⟩, ⟨_, rfl, by decide⟩, ⟨_, rfl, by decide⟩, ⟨_, rfl, by decide⟩,
    ⟨_, rfl, by decide⟩, _, rfl, ?_⟩
  rw [readQuantity, onContext_in zero_lt_nctx]
  decide

/-- `NSTART` changes the enable flag, `NSETT` the target, `NTASK` the position of context 0. -/
theorem witness_ContextFieldsHaveOnlyTheirWriters :
    (∃ t, exec (.nstart 0) (at0 (idle false 0 0)) = .next t ∧ Instr.nstart 0 ≠ .ninit 0 ∧ (t.needle 0).enable ≠ false) ∧
    (∃ t, exec (.nsett 0 10) (at0 (idle false 0 0)) = .next t ∧ (t.needle 0).tgt ≠ 0) ∧
    ∃ t, exec (.ntask 0) (at0 (idle true 20 lastCount)) = .next t ∧ (t.needle 0).cur ≠ 0 := by
  refine ⟨⟨_, rfl, by decide, ?_⟩, ⟨_, rfl, ?_⟩, ?_⟩
  · rw [setNeedleEnable_in true zero_lt_nctx (by rw [at0_needle]; rfl), State.needle_setCtx_self]; decide
  · rw [setTarget_in 10 zero_lt_nctx (by rw [at0_needle]; rfl) (by rw [at0_needle]; decide), State.needle_setCtx_self,
      at0_needle]
    decide
  · obtain ⟨t, -, -, ht, hc, -⟩ := witness_PeriodFollowsTheRampContract (20, 19) (by decide)
    rw [at0_needle] at hc
    exact ⟨t, ht, hc⟩

/-- Reset of a block whose three kinds of output enable are all set. -/
theorem witness_OnlyResetUndrivesAndUnregisters :
    ∃ s t : State, step s = .next t ∧ (s.tchOe = true ∧ t.tchOe = false) ∧ (s.msOe = true ∧ t.msOe = false) ∧
      (s.needle 0).init = true ∧ (t.needle 0).init = false := by
  refine ⟨{ at0 (idle true 0 0) with tchOe := true, msOe := true, inputs := [.rst] }, _, rfl, ⟨rfl, rfl⟩, ⟨rfl, rfl⟩,
    ?_, ?_⟩
  · exact congrArg NeedleContext.init (at0_needle (idle true 0 0))
  · exact congrArg NeedleContext.init (State.needle_resetWith Config.params 0)

/-- A step that emits: the only case the statement does not exclude. -/
theorem witness_OnlyNtaskEmitsPulses :
    ∃ s t : State, step s = .next t ∧ s.inputs = [.cmd 0x38000000] ∧ t.trace = s.trace ++ [.stepPulse 0 true] := by
  refine ⟨(at0 (idle true 20 lastCount)).setInputs [.cmd 0x38000000], _, rfl, rfl, ?_⟩
  have h := task_steps (s := at0 (idle true 20 lastCount)) (at0_needle _) (by decide)
  exact congrArg State.trace h

theorem witness_TchAndManoCommandsCommute : isTchCommand .ttask = true ∧ isManoCommand (.ntask 0) = true := ⟨rfl, rfl⟩

/-- An engaged drive with a tick waiting meets the TCH invariants. -/
theorem witness_StepKeepsTheTchInvariants :
    ∃ s t : State, TchInvariant Config.params s ∧ s.tchState = .sector .step1 ∧ step s = .next t := by
  refine ⟨engaged.setInputs [.tick], _, ?_, ?_, rfl⟩
  · obtain ⟨a, b, c, d, e, f, g, h⟩ := engaged_inv
    exact ⟨a, b, c, d, e, f, g, h⟩
  · rw [State.setInputs_tchState, engaged_eq]

/-- A needle about to step, with its `NTASK` waiting, meets the MANO invariants. -/
theorem witness_StepKeepsTheManoInvariants :
    ∃ s t : State, ManoInvariant Config.params s ∧ (s.needle 0).enable = true ∧ s.inputs = [.cmd 0x38000000] ∧
      step s = .next t := by
  refine ⟨(at0 (idle true 20 lastCount)).setInputs [.cmd 0x38000000], _, ?_, ?_, rfl, rfl⟩
  · have hl := lastCount_toNat
    have hp := Config.params.periodInit_pos
    intro c _
    rw [State.needle_setInputs]
    by_cases h : c = 0
    · subst h; rw [at0_needle]; exact idle_inv true (by decide) (by omega)
    · rw [at0, State.needle_setCtx_ne h, State.reset, State.needle_resetWith]
      exact ⟨by decide, by decide, hp, le_refl _, le_refl _, hp, fun _ => by contradiction, fun _ => rfl⟩
  · rw [State.needle_setInputs, at0_needle]; rfl

/-- A registered needle, its line driven and without a pulse so far. -/
theorem lines_driven (x : NeedleContext) (hx : x.init = true) (l : List Input) :
    ((at0 x).setInputs l).stepPin Config.params 0 = some [] :=
  stepPin_driven zero_lt_nctx (by rw [State.needle_setInputs, at0_needle]; exact hx)

/-- A reset, a wait, and an `NTASK` that steps, each with the line driven before. -/
theorem witness_StepLineCarriesOnePulsePerStep :
    ∀ l ∈ ([[.rst], [], [.cmd 0x38000000]] : List (List Input)), ∃ s t : State,
      s.inputs = l ∧ s.stepPin Config.params 0 = some [] ∧ step s = .next t ∧
      (l = [.cmd 0x38000000] → t.stepPin Config.params 0 = some [true] ∧ (t.needle 0).cur ≠ (s.needle 0).cur) := by
  intro l hl
  have hn := lines_driven (idle true 20 lastCount) rfl l
  simp only [List.mem_cons, List.not_mem_nil, or_false] at hl
  rcases hl with rfl | rfl | rfl
  · exact ⟨_, _, rfl, hn, rfl, nofun⟩
  · exact ⟨_, _, rfl, hn, rfl, nofun⟩
  · have h := task_steps (s := at0 (idle true 20 lastCount)) (at0_needle _) (by decide)
    refine ⟨_, needleTask Config.params 0 (at0 (idle true 20 lastCount)), rfl, hn, rfl, fun _ => ?_⟩
    rw [h, State.needle_setInputs, at0_needle]
    have hx : (stepNeedle Config.params 0 (idle true 20 lastCount) (at0 (idle true 20 lastCount))).needle 0 =
        (idle true 20 lastCount).stepped Config.params := by simp [stepNeedle]
    refine ⟨?_, by rw [hx]; decide⟩
    rw [stepPin_driven zero_lt_nctx (by rw [hx]; rfl)]
    rfl

end Sys2Proof.Tests
end

section
/-! PROOFS. The statements about the input ports and the pins (00_scope.md): what a command word on the port runs, what
the Init commands drive, and what a step can do to the step line of a context. -/

namespace Sys2Proof.Machine

/-! ### The command port -/

/-- Settles O3: the port decodes the word and hands the command the state without the strobe. -/
theorem stepRunsTheDecodedCommand : Obligations.StepRunsTheDecodedCommand := by
  unfold Obligations.StepRunsTheDecodedCommand
  intro s w rest i hin hd
  exact step_cmd hin hd

/-! ### What `NINIT` leaves of its context's lines -/

theorem needleInit_init {P : Params} {c : Sel} (hc : c.val < P.nctx) (s : State) :
    ((needleInit P c s).needle c).init = true := by
  rw [needleInit, onContext_in hc, State.needle_setCtx_self]

theorem needleInit_dir {P : Params} {c : Sel} (hc : c.val < P.nctx) (s : State) :
    ((needleInit P c s).needle c).dir = false := by
  rw [needleInit, onContext_in hc, State.needle_setCtx_self]

/-- Initialising a needle sends no pulse (41_mano.md rule R162). -/
theorem needleInit_trace (P : Params) (c : Sel) (s : State) : (needleInit P c s).trace = s.trace := by
  unfold needleInit State.onContext
  split <;> rfl

/-- After `NINIT c` the direction line of `c` is driven at 0 (10_state.md rules R37, R47). -/
theorem needleInit_dirPin {P : Params} {c : Sel} (hc : c.val < P.nctx) (s : State) :
    (needleInit P c s).dirPin P c = some false := by
  rw [dirPin_driven hc (needleInit_init hc s), needleInit_dir hc]

/-- After `NINIT c` the step line of `c` is driven and has carried the pulses it had carried (10_state.md rule R37). -/
theorem needleInit_stepPin {P : Params} {c : Sel} (hc : c.val < P.nctx) (s : State) :
    (needleInit P c s).stepPin P c = some (s.stepPulses c) := by
  rw [stepPin_driven hc (needleInit_init hc s), stepPulses_congr (needleInit_trace P c s)]

/-- Settles O43: reset clears the three kinds of output enable, and each Init command sets its own. -/
theorem initCommandsDriveTheirPins : Obligations.InitCommandsDriveTheirPins := by
  unfold Obligations.InitCommandsDriveTheirPins
  have unregistered (c : Sel) : (State.reset.needle c).init = false := by
    rw [State.reset, State.needle_resetWith, NeedleContext.resetWith]
  refine ⟨rfl, rfl, fun c => ⟨dirPin_undriven _ (unregistered c), stepPin_undriven _ (unregistered c)⟩,
    fun s => ⟨⟨tchInit s, rfl, rfl⟩, ⟨powerInit s, rfl, rfl⟩, fun c hc => ?_⟩⟩
  exact ⟨needleInit Config.params c s, rfl, needleInit_dirPin hc s, needleInit_stepPin hc s⟩

/-! ### When the step line stays as it was -/

theorem stepPin_eq_some_iff {P : Params} {c : Sel} {s : State} {pulses : List Bool} :
    s.stepPin P c = some pulses ↔ c.val < P.nctx ∧ (s.needle c).init = true ∧ s.stepPulses c = pulses := by
  simp [State.stepPin, and_assoc]

/-- The step line shows the registration of its context and the pulses on it, and nothing else of the state. -/
theorem stepPin_congr {s t : State} {c : Sel} (P : Params) (hi : (t.needle c).init = (s.needle c).init)
    (hp : t.stepPulses c = s.stepPulses c) : t.stepPin P c = s.stepPin P c := by
  rw [State.stepPin, hi, hp, State.stepPin]

/-- From `s` to `t` the step line of `c` stays as it was and the needle believes itself where it was. -/
def LineHeld (P : Params) (c : Sel) (s t : State) : Prop :=
  t.stepPin P c = s.stepPin P c ∧ (t.needle c).cur = (s.needle c).cur

/-- A line is held where its context and the trace are left alone. -/
theorem LineHeld.of_frame {s t : State} {c : Sel} (P : Params) (hn : t.needle c = s.needle c)
    (ht : t.trace = s.trace) : LineHeld P c s t :=
  ⟨stepPin_congr P (by rw [hn]) (stepPulses_congr ht c), by rw [hn]⟩

/-- A line is held where its context is written but for the registration and the position. -/
theorem LineHeld.setCtx {s : State} {c : Sel} {x : NeedleContext} (P : Params) (hi : x.init = (s.needle c).init)
    (hx : x.cur = (s.needle c).cur) : LineHeld P c s (s.setCtx c x) := by
  have hn : (s.setCtx c x).needle c = x := State.needle_setCtx_self c x s
  exact ⟨stepPin_congr P (by rw [hn, hi]) (stepPulses_congr rfl c), by rw [hn, hx]⟩

theorem LineHeld.refl (P : Params) (c : Sel) (s : State) : LineHeld P c s s := ⟨rfl, rfl⟩

/-! ### The step of a needle -/

theorem stepNeedle_needle (P : Params) (c : Sel) (x : NeedleContext) (s : State) :
    (stepNeedle P c x s).needle c = x.stepped P := by
  rw [stepNeedle, State.needle_emit, State.needle_setCtx_self]

/-- A step moves the needle (41_mano.md rule R172). -/
theorem stepped_cur_ne (P : Params) {x : NeedleContext} (h : x.cur ≠ x.tgt) : (x.stepped P).cur ≠ x.cur := by
  intro e
  have hn := stepped_cur_toNat P h
  have ht : x.cur.toNat ≠ x.tgt.toNat := fun e' => h (BitVec.eq_of_toNat_eq e')
  rw [e] at hn
  split at hn <;> omega

/-- A step of a registered needle adds one pulse to its step line, at the level of its new direction (41_mano.md rules
R172, R173). -/
theorem stepNeedle_stepPin {P : Params} {c : Sel} {x : NeedleContext} (hc : c.val < P.nctx) (hi : x.init = true)
    (s : State) : (stepNeedle P c x s).stepPin P c = some (s.stepPulses c ++ [(x.stepped P).dir]) := by
  have hinit : ((stepNeedle P c x s).needle c).init = true := by rw [stepNeedle_needle, stepped_init, hi]
  have htrace : (stepNeedle P c x s).trace = s.trace ++ [.stepPulse c (x.stepped P).dir] := rfl
  rw [stepPin_driven hc hinit, stepPulses_append htrace, if_pos rfl]

theorem stepNeedle_dirPin {P : Params} {c : Sel} {x : NeedleContext} (hc : c.val < P.nctx) (hi : x.init = true)
    (s : State) : (stepNeedle P c x s).dirPin P c = some (x.stepped P).dir := by
  rw [dirPin_driven hc (by rw [stepNeedle_needle, stepped_init, hi]), stepNeedle_needle]

/-! ### What a command does to the step line of a context -/

/-- A command without a context index leaves every context and the trace alone. -/
theorem effect_no_context_frame (P : Params) {i : Instr} (hi : contextOf i = none) (s : State) :
    (effect P i s).ctx = s.ctx ∧ (effect P i s).trace = s.trace := by
  cases i <;> simp only [contextOf, reduceCtorEq] at hi
  case ttask => rw [effect, tchTask_writes]; exact ⟨rfl, rfl⟩
  all_goals exact ⟨rfl, rfl⟩

/-- A command on context `d` does not act on the step line of another context (10_state.md rule R36). -/
theorem effect_other_context_holds_line (P : Params) {i : Instr} {c d : Sel} (hi : contextOf i = some d) (hcd : c ≠ d)
    (s : State) : LineHeld P c s (effect P i s) := by
  obtain ⟨x, r, tr, he, -, htr⟩ := effect_context_writes P hi s
  have hn : (effect P i s).needle c = s.needle c := by
    rw [he]; exact State.needle_setCtx_ne hcd x s
  have hp : (effect P i s).stepPulses c = s.stepPulses c := by
    have ht : (effect P i s).trace = tr := by rw [he]
    obtain h | ⟨-, h⟩ := htr
    · exact stepPulses_congr (ht.trans h) c
    · rw [stepPulses_append (ht.trans h), if_neg hcd.symm, List.append_nil]
  exact ⟨stepPin_congr P (by rw [hn]) hp, by rw [hn]⟩

theorem setTarget_holds_line (P : Params) (c : Sel) (q : Int) (s : State) : LineHeld P c s (setTarget P c q s) := by
  obtain ⟨-, -, h⟩ | h := onRegistered_cases P c s _ <;> rw [setTarget, h]
  · split
    · exact .refl P c s
    · exact .setCtx P rfl rfl
  · exact .refl P c s

theorem readQuantity_holds_line (P : Params) (c : Sel) (s : State) : LineHeld P c s (readQuantity P c s) := by
  unfold readQuantity State.onContext
  split
  · exact .of_frame P rfl rfl
  · exact .refl P c s

theorem setNeedleEnable_holds_line (P : Params) (c : Sel) (b : Bool) (s : State) :
    LineHeld P c s (setNeedleEnable P c b s) := by
  obtain ⟨-, -, h⟩ | h := onRegistered_cases P c s _ <;> rw [setNeedleEnable, h]
  · exact .setCtx P rfl rfl
  · exact .refl P c s

/-- `NTASK c` holds the step line of `c`, or takes a step (41_mano.md rule R172). -/
theorem needleTask_line (P : Params) (c : Sel) (s : State) :
    LineHeld P c s (needleTask P c s) ∨
      (s.needle c).cur ≠ (s.needle c).tgt ∧ needleTask P c s = stepNeedle P c (s.needle c) s := by
  obtain h | ⟨-, -, -, -, -, h⟩ | ⟨-, -, -, hne, -, h⟩ := needleTask_cases P c s <;> rw [h]
  · exact .inl (.refl P c s)
  · exact .inl (.setCtx P rfl rfl)
  · exact .inr ⟨hne, rfl⟩

/-- Whatever the command, the step line of `c` is held, or the command is `NINIT c`, or it is an `NTASK c` that takes a
step. -/
theorem effect_line_cases (P : Params) (i : Instr) (c : Sel) (s : State) :
    LineHeld P c s (effect P i s) ∨ i = .ninit c ∨
      (i = .ntask c ∧ (s.needle c).cur ≠ (s.needle c).tgt ∧ effect P i s = stepNeedle P c (s.needle c) s) := by
  cases hi : contextOf i with
  | none =>
    obtain ⟨hctx, htrace⟩ := effect_no_context_frame P hi s
    exact .inl (.of_frame P (State.needle_congr hctx c) htrace)
  | some d =>
    by_cases hcd : c = d
    · subst hcd
      cases i <;> simp only [contextOf, Option.some.injEq, reduceCtorEq] at hi <;> subst hi
      case ninit c => exact .inr (.inl rfl)
      case nsett c q => exact .inl (setTarget_holds_line P c q s)
      case ngetp c => exact .inl (readQuantity_holds_line P c s)
      case nstart c => exact .inl (setNeedleEnable_holds_line P c true s)
      case nstop c => exact .inl (setNeedleEnable_holds_line P c false s)
      case ntask c => exact (needleTask_line P c s).imp_right fun h => .inr ⟨rfl, h⟩
    · exact .inl (effect_other_context_holds_line P hi hcd s)

/-! ### What a step does to the step line of a context -/

@[simp] theorem tickEvent_trace (P : Params) (s : State) : (tickEvent P s).trace = s.trace := by
  rw [tickEvent_writes]

/-- Taking a strobe off the port acts on no line. -/
theorem LineHeld.of_setInputs {P : Params} {c : Sel} {s t : State} {l : List Input}
    (h : LineHeld P c (s.setInputs l) t) : LineHeld P c s t := h

/-- Whatever the strobe, it is a reset, or the step line of `c` is held, or the strobe is a word that decodes to
`NINIT c`, or to an `NTASK c` that takes a step. -/
theorem stepEffect_line_cases (P : Params) (c : Sel) (s : State) :
    (∃ rest, s.inputs = .rst :: rest ∧ (stepEffect P s).stepPin P c = none) ∨
    LineHeld P c s (stepEffect P s) ∨
    ∃ w rest, s.inputs = .cmd w :: rest ∧
      ((decode w = .ok (.ninit c) ∧ stepEffect P s = needleInit P c (s.setInputs rest)) ∨
      (decode w = .ok (.ntask c) ∧ (s.needle c).cur ≠ (s.needle c).tgt ∧
        stepEffect P s = stepNeedle P c (s.needle c) (s.setInputs rest))) := by
  cases hin : s.inputs with
  | nil => exact .inr (.inl (by simpa only [stepEffect, hin] using LineHeld.refl P c s))
  | cons x rest =>
    cases x with
    | rst =>
      refine .inl ⟨rest, rfl, stepPin_undriven P ?_⟩
      simp [stepEffect, hin, State.applyReset, NeedleContext.resetWith]
    | tick => exact .inr (.inl (.of_frame P (by simp [stepEffect, hin]) (by simp [stepEffect, hin])))
    | tickCmd w => exact .inr (.inl (.of_frame P (by simp [stepEffect, hin]) (by simp [stepEffect, hin])))
    | cmd w =>
      cases hd : decode w with
      | error e => exact .inr (.inl (by simpa only [stepEffect, hin, hd] using .of_frame P rfl rfl))
      | ok i =>
        have he : stepEffect P s = effect P i (s.setInputs rest) := by simp only [stepEffect, hin, hd]
        rw [he]
        obtain h | rfl | ⟨rfl, hne, h⟩ := effect_line_cases P i c (s.setInputs rest)
        · exact .inr (.inl h.of_setInputs)
        · exact .inr (.inr ⟨w, rest, rfl, .inl ⟨hd, rfl⟩⟩)
        · exact .inr (.inr ⟨w, rest, rfl, .inr ⟨hd, hne, h⟩⟩)

/-- Settles O52: a driven line is held, or cleared by reset, or kept by an `NINIT` that may move the needle, or gains
the pulse of one step. -/
theorem stepLineCarriesOnePulsePerStep : Obligations.StepLineCarriesOnePulsePerStep := by
  unfold Obligations.StepLineCarriesOnePulsePerStep
  intro c s t pulses hpin hstep
  obtain ⟨hc, hi, hpulses⟩ := stepPin_eq_some_iff.mp hpin
  rw [step_next_iff] at hstep
  obtain hrst | ⟨hline, hcur⟩ | ⟨w, rest, hin, ⟨hd, h⟩ | ⟨hd, hne, h⟩⟩ := stepEffect_line_cases Config.params c s
  · left
    rwa [hstep]
  · right; left
    rw [hstep, hline]
    exact ⟨hpin, fun hmoved => absurd hcur hmoved⟩
  · right; left
    rw [hstep, h, needleInit_stepPin hc, ← hpulses]
    exact ⟨rfl, fun _ => ⟨w, rest, hin, hd⟩⟩
  · right; right
    refine ⟨w, rest, ((s.needle c).stepped Config.params).dir, hin, hd, ?_, ?_, ?_⟩
    · rw [hstep, h, stepNeedle_needle]
      exact stepped_cur_ne Config.params hne
    · rw [hstep, h, stepNeedle_dirPin hc hi]
    · rw [hstep, h, stepNeedle_stepPin hc hi, ← hpulses]
      rfl

end Sys2Proof.Machine
end

section
/-! PROOFS. The statements about the state (10_state.md): which commands write which field, what a command makes of a
needle context and of the trace, and that every step keeps the invariants of both drives. -/

namespace Sys2Proof.Machine

/-! ### What every step keeps -/

/-- Everything a step can do: reset, take a strobe that changes no register (or wait), tick, or run a command. -/
theorem stepEffect_cases (P : Params) (s : State) :
    (∃ rest, s.inputs = .rst :: rest ∧ stepEffect P s = (State.resetWith P).setInputs rest) ∨
    (∃ l, stepEffect P s = s.setInputs l) ∨
    (∃ l, stepEffect P s = tickEvent P (s.setInputs l)) ∨
    ∃ w rest i, s.inputs = .cmd w :: rest ∧ decode w = .ok i ∧ stepEffect P s = effect P i (s.setInputs rest) := by
  unfold stepEffect
  cases s.inputs with
  | nil => exact .inr (.inl ⟨s.inputs, rfl⟩)
  | cons x rest =>
    cases x with
    | rst => exact .inl ⟨rest, rfl, rfl⟩
    | tick => exact .inr (.inr (.inl ⟨rest, rfl⟩))
    | tickCmd w => exact .inr (.inr (.inl ⟨.cmd w :: rest, rfl⟩))
    | cmd w =>
      cases hd : decode w with
      | error e => exact .inr (.inl ⟨rest, by simp only [hd]⟩)
      | ok i => exact .inr (.inr (.inr ⟨w, rest, i, rfl, hd, by simp only [hd]⟩))

/-- A property of the registers that holds after reset and that ticks and commands keep is kept by every step, of
whichever agent (00_scope.md rule R10). -/
theorem stepEffect_keeps {P : Params} {I : State → Prop} (hinputs : ∀ s l, I s → I (s.setInputs l))
    (hreset : I (State.resetWith P)) (htick : ∀ s, I s → I (tickEvent P s))
    (hcommand : ∀ i s, I s → I (effect P i s)) {s : State} (h : I s) : I (stepEffect P s) := by
  obtain ⟨rest, -, e⟩ | ⟨l, e⟩ | ⟨l, e⟩ | ⟨w, rest, i, -, -, e⟩ := stepEffect_cases P s <;> rw [e]
  · exact hinputs _ _ hreset
  · exact hinputs _ _ h
  · exact htick _ (hinputs _ _ h)
  · exact hcommand _ _ (hinputs _ _ h)

/-! ### The TCH invariants -/

/-- What the TCH invariants speak of: the commutation state, the lines and the timer (10_state.md rule R34). -/
def State.drive (s : State) : CommutationState × Lines × Bool × U24 × U32 × Bool :=
  (s.tchState, s.tchOut, s.tmrRun, s.tmrDelay, s.tmrAcc, s.tmrElapsed)

/-- Only `TINIT` and `TTASK` write the commutation state, the lines or the timer (10_state.md rules R34, R35). -/
theorem effect_drive (P : Params) {i : Instr} (htinit : i ≠ .tinit) (httask : i ≠ .ttask) (s : State) :
    (effect P i s).drive = s.drive := by
  cases hi : contextOf i with
  | some c =>
    obtain ⟨x, r, tr, he, -, -⟩ := effect_context_writes P hi s
    rw [he]; rfl
  | none =>
    cases i <;> simp only [contextOf, reduceCtorEq] at hi
    case tinit => exact absurd rfl htinit
    case ttask => exact absurd rfl httask
    all_goals rfl

theorem TchInvariant.of_drive_eq {P : Params} {s t : State} (h : TchInvariant P s) (e : t.drive = s.drive) :
    TchInvariant P t := by
  simp only [State.drive, Prod.mk.injEq] at e
  obtain ⟨hstate, hout, hrun, hdelay, hacc, helapsed⟩ := e
  obtain ⟨recognized, patterned, running, loaded, elapsed, whole, pending, bounded⟩ := h
  constructor <;> simp only [hstate, hout, hrun, hdelay, hacc, helapsed] <;> assumption

/-- A stopped drive with an empty timer meets the invariants: the drive after reset and after `TINIT`. -/
theorem TchInvariant.of_idle {P : Params} {s : State} (hstate : s.tchState = .off) (hout : s.tchOut = 0)
    (hrun : s.tmrRun = false) (hacc : s.tmrAcc = 0) (helapsed : s.tmrElapsed = false) : TchInvariant P s where
  recognized := by simp [hstate]
  patterned := by rw [hstate, hout, pat]
  running := by simp [hstate, hrun]
  loaded := by simp [hrun]
  elapsed := by simp [helapsed]
  whole := by simp [hacc]
  pending := by simp [hrun]
  bounded := by simp [hacc]

theorem tchInvariant_resetWith (P : Params) : TchInvariant P (State.resetWith P) := .of_idle rfl rfl rfl rfl rfl

theorem tchInit_invariant (P : Params) (s : State) : TchInvariant P (tchInit s) := .of_idle rfl rfl rfl rfl rfl

/-- A sector entered with its pattern and a fresh load of an engaged delay meets the invariants (40_tch.md rules R134,
R137). -/
theorem TchInvariant.of_load {P : Params} {s : State} (k : Sector) (hrun : s.tmrRun = true)
    (hspeed : P.speedMin ≤ s.tchSpeed.toNat) :
    TchInvariant P ((s.loadTimer (delay P s.tchSpeed)).enterSector P k) where
  recognized := by simp
  patterned := rfl
  running := by simp [hrun]
  loaded := fun _ => delay_engaged P hspeed
  elapsed := by simp
  whole := by simp
  pending := by simp
  bounded := by simp

/-- Stopping keeps what the timer holds: the bounds on it do not ask whether it runs. -/
theorem TchInvariant.stop {P : Params} {s : State} (h : TchInvariant P s) :
    TchInvariant P (s.setTmrRun false).enterOff where
  recognized := by simp
  patterned := rfl
  running := by simp
  loaded := by simp
  elapsed := h.elapsed
  whole := h.whole
  pending := by simp
  bounded := h.bounded

/-- Writing the pattern of the present state again changes nothing the invariants speak of (invariant (b)). -/
theorem TchInvariant.rewrite_pattern {P : Params} {s : State} {o : Lines} (h : TchInvariant P s)
    (ho : pat P s.tchState = some o) : TchInvariant P (s.setTchOut o) := by
  have hout : s.tchOut = o := Option.some.inj (h.patterned.symm.trans ho)
  exact h.of_drive_eq (by rw [← hout]; rfl)

theorem TchInvariant.after_tchTask {P : Params} {s : State} (h : TchInvariant P s) : TchInvariant P (tchTask P s) := by
  obtain ⟨-, hv, e⟩ | ⟨hoff, -, e⟩ | ⟨k, -, -, e⟩ | ⟨k, hk, hv, -, e⟩ | ⟨k, hk, -, -, e⟩ | ⟨-, e⟩ :=
    tchTask_cases P s <;> rw [e]
  · exact .of_load (s := s.setTmrRun true) .step1 rfl hv
  · exact h.rewrite_pattern (by rw [hoff, pat])
  · exact h.stop
  · exact .of_load (nextSector k) (h.running.mpr ⟨k, hk⟩) hv
  · exact h.rewrite_pattern (by rw [hk, pat])
  · exact h

theorem TchInvariant.after_effect {P : Params} {s : State} (h : TchInvariant P s) (i : Instr) :
    TchInvariant P (effect P i s) := by
  by_cases htinit : i = .tinit
  · subst htinit; exact tchInit_invariant P s
  · by_cases httask : i = .ttask
    · subst httask; exact h.after_tchTask
    · exact h.of_drive_eq (effect_drive P htinit httask s)

/-- A counting timer is below its delay, so one more tick fits the accumulator and overshoots by less than a tick
(10_state.md rule R30). -/
theorem TchInvariant.after_tickEvent {P : Params} {s : State} (h : TchInvariant P s) :
    TchInvariant P (tickEvent P s) := by
  by_cases hcount : s.tmrRun = true ∧ s.tmrElapsed = false
  · obtain ⟨hrun, helapsed⟩ := hcount
    have hbelow := h.pending hrun helapsed
    have hacc : (narrow32 (s.tmrAcc.toNat + P.tickUs)).toNat = s.tmrAcc.toNat + P.tickUs :=
      narrow32_toNat (by have := s.tmrDelay.isLt; have := P.tickUs_range; omega)
    rw [tickEvent, advanceTimer_counting (s := s.countTick) hrun helapsed]
    refine ⟨h.recognized, h.patterned, h.running, h.loaded, ?_, ?_, ?_, ?_⟩ <;>
      simp only [State.countTick_tmrDelay, State.countTick_tmrAcc, hacc]
    · exact of_decide_eq_true
    · exact Nat.dvd_add_self_right.mpr h.whole
    · intro _ hnot
      have := of_decide_eq_false hnot
      omega
    · omega
  · rw [tickEvent, advanceTimer_holding (s := s.countTick) hcount]
    exact h.of_drive_eq rfl

/-- Settles O50: ticks and commands keep the TCH invariants, and reset meets them. -/
theorem stepKeepsTheTchInvariants : Obligations.StepKeepsTheTchInvariants := by
  unfold Obligations.StepKeepsTheTchInvariants
  intro s t h hstep
  rw [step_next_iff] at hstep
  rw [hstep]
  exact stepEffect_keeps (fun s l h => h.of_drive_eq rfl) (tchInvariant_resetWith _) (fun s h => h.after_tickEvent)
    (fun i s h => h.after_effect i) h

/-! ### What a command makes of a needle context -/

theorem setTarget_needle_cases (P : Params) (c : Sel) (q : Int) (s : State) :
    (setTarget P c q s).needle c = s.needle c ∨
    (s.needle c).init = true ∧ (setTarget P c q s).needle c = { s.needle c with
      tgt := BitVec.ofNat 24 (targetStep q (s.needle c).maxQ.toNat (s.needle c).maxSteps.toNat) } := by
  obtain ⟨-, hinit, h⟩ | h := onRegistered_cases P c s _ <;> rw [setTarget, h]
  · split
    · exact .inl rfl
    · exact .inr ⟨hinit, State.needle_setCtx_self _ _ _⟩
  · exact .inl rfl

theorem setNeedleEnable_needle_cases (P : Params) (c : Sel) (b : Bool) (s : State) :
    (setNeedleEnable P c b s).needle c = s.needle c ∨
    (s.needle c).init = true ∧ (setNeedleEnable P c b s).needle c = (s.needle c).setEnable b := by
  obtain ⟨-, hinit, h⟩ | h := onRegistered_cases P c s _ <;> rw [setNeedleEnable, h]
  · exact .inr ⟨hinit, State.needle_setCtx_self _ _ _⟩
  · exact .inl rfl

@[simp] theorem readQuantity_needle (P : Params) (c d : Sel) (s : State) :
    (readQuantity P c s).needle d = s.needle d := by
  unfold readQuantity State.onContext
  split <;> rfl

/-- Everything a command can make of context `c`: leave it alone, or be one of the five commands that write it, with
what that one writes (10_state.md rule R36, 41_mano.md). -/
theorem effect_needle_cases (P : Params) (i : Instr) (c : Sel) (s : State) :
    (effect P i s).needle c = s.needle c ∨
    (i = .ninit c ∧ c.val < P.nctx ∧ (effect P i s).needle c = (needleInit P c s).needle c) ∨
    (s.needle c).init = true ∧
      ((∃ q, i = .nsett c q ∧ (effect P i s).needle c = { s.needle c with
          tgt := BitVec.ofNat 24 (targetStep q (s.needle c).maxQ.toNat (s.needle c).maxSteps.toNat) }) ∨
      (∃ b, (i = .nstart c ∨ i = .nstop c) ∧ (effect P i s).needle c = (s.needle c).setEnable b) ∨
      (i = .ntask c ∧ (s.needle c).cnt.toNat + 1 < (s.needle c).period.toNat ∧
        (effect P i s).needle c = { s.needle c with cnt := (s.needle c).cnt + 1 }) ∨
      (i = .ntask c ∧ (s.needle c).cur ≠ (s.needle c).tgt ∧
        (effect P i s).needle c = (s.needle c).stepped P)) := by
  cases hi : contextOf i with
  | none => exact .inl (State.needle_congr (effect_no_context_frame P hi s).1 c)
  | some d =>
    by_cases hcd : c = d
    · subst hcd
      cases i <;> simp only [contextOf, Option.some.injEq, reduceCtorEq] at hi <;> subst hi <;> rw [effect]
      case ninit c =>
        by_cases hc : c.val < P.nctx
        · exact .inr (.inl ⟨rfl, hc, rfl⟩)
        · left; rw [needleInit, onContext_out hc]
      case nsett c q =>
        exact (setTarget_needle_cases P c q s).imp_right fun ⟨hinit, h⟩ => .inr ⟨hinit, .inl ⟨q, rfl, h⟩⟩
      case ngetp c => exact .inl (readQuantity_needle P c c s)
      case nstart c =>
        exact (setNeedleEnable_needle_cases P c true s).imp_right fun ⟨hinit, h⟩ =>
          .inr ⟨hinit, .inr (.inl ⟨true, .inl rfl, h⟩)⟩
      case nstop c =>
        exact (setNeedleEnable_needle_cases P c false s).imp_right fun ⟨hinit, h⟩ =>
          .inr ⟨hinit, .inr (.inl ⟨false, .inr rfl, h⟩)⟩
      case ntask c =>
        obtain h | ⟨-, hinit, -, -, hcnt, h⟩ | ⟨-, hinit, -, hne, -, h⟩ := needleTask_cases P c s <;> rw [h]
        · exact .inl rfl
        · exact .inr (.inr ⟨hinit, .inr (.inr (.inl ⟨rfl, hcnt, State.needle_setCtx_self _ _ _⟩))⟩)
        · exact .inr (.inr ⟨hinit, .inr (.inr (.inr ⟨rfl, hne, stepNeedle_needle P c _ s⟩))⟩)
    · obtain ⟨x, r, tr, he, -, -⟩ := effect_context_writes P hi s
      left; rw [he]; exact State.needle_setCtx_ne hcd x s

/-! ### The MANO invariants -/

theorem needleInvariant_resetWith (P : Params) : NeedleInvariant P (NeedleContext.resetWith P) where
  curInScale := le_refl _
  tgtInScale := le_refl _
  periodMinPos := P.periodInit_pos
  periodMinLe := le_refl _
  periodLe := le_refl _
  counting := P.periodInit_pos
  enabledRegistered := by simp [NeedleContext.resetWith]
  unregistered := fun _ => rfl

theorem manoInvariant_resetWith (P : Params) : ManoInvariant P (State.resetWith P) := fun c _ => by
  rw [State.needle_resetWith]
  exact needleInvariant_resetWith P

/-- `NINIT` establishes the invariants: the starting step is clamped to the scale (41_mano.md rule R162). -/
theorem needleInit_invariant {P : Params} {c : Sel} (hc : c.val < P.nctx) (s : State) :
    NeedleInvariant P ((needleInit P c s).needle c) := by
  have hstart : (if (P.startStep c).toNat ≤ (s.argAt 1).toNat then P.startStep c else s.argAt 1).toNat ≤
      (s.argAt 1).toNat := by
    split
    · assumption
    · exact le_refl _
  obtain ⟨hpos, hle⟩ := periodMin_bounds P (s.argAt 3)
  rw [needleInit, onContext_in hc, State.needle_setCtx_self]
  exact ⟨hstart, hstart, hpos, hle, le_refl _, P.periodInit_pos, nofun, nofun⟩

/-- Invariant (f) says nothing of a registered context. -/
theorem not_unregistered {x : NeedleContext} {p : Prop} (hinit : x.init = true) (h : x.init = false) : p :=
  nomatch hinit.symm.trans h

section Registered

variable {P : Params} {x : NeedleContext} (hinit : x.init = true)

include hinit

theorem NeedleInvariant.setTgt (h : NeedleInvariant P x) {v : U24} (hv : v.toNat ≤ x.maxSteps.toNat) :
    NeedleInvariant P { x with tgt := v } :=
  { h with tgtInScale := hv, unregistered := not_unregistered hinit }

theorem NeedleInvariant.setEnable (h : NeedleInvariant P x) (b : Bool) : NeedleInvariant P (x.setEnable b) :=
  { h with enabledRegistered := fun _ => hinit, unregistered := not_unregistered hinit }

theorem NeedleInvariant.count (h : NeedleInvariant P x) (hcnt : x.cnt.toNat + 1 < x.period.toNat) :
    NeedleInvariant P { x with cnt := x.cnt + 1 } :=
  { h with counting := (count_toNat hcnt).trans_lt hcnt, unregistered := not_unregistered hinit }

/-- A step toward a target on the scale stays on the scale, and the ramp law keeps the period in its bounds
(41_mano.md rule R176, P1). -/
theorem NeedleInvariant.stepped (h : NeedleInvariant P x) (hne : x.cur ≠ x.tgt) :
    NeedleInvariant P (x.stepped P) := by
  obtain ⟨hmin, hmax⟩ := P.ramp_admissible.bounds x.period (distance x.tgt (x.stepped P).cur) x.inertia x.periodMin
    P.periodInit h.periodMinPos h.periodMinLe h.periodLe
  rw [← stepped_period] at hmin hmax
  have hcur : (x.stepped P).cur.toNat ≤ x.maxSteps.toNat := by
    have := h.curInScale
    have := h.tgtInScale
    rw [stepped_cur_toNat P hne]
    split <;> omega
  exact ⟨hcur, h.tgtInScale, h.periodMinPos, hmin, hmax, h.periodMinPos.trans hmin, fun _ => hinit,
    not_unregistered hinit⟩

end Registered

theorem ManoInvariant.after_effect {P : Params} {s : State} (h : ManoInvariant P s) (i : Instr) :
    ManoInvariant P (effect P i s) := by
  intro c hc
  obtain e | ⟨-, -, e⟩ | ⟨hinit, ⟨q, -, e⟩ | ⟨b, -, e⟩ | ⟨-, hcnt, e⟩ | ⟨-, hne, e⟩⟩ :=
    effect_needle_cases P i c s <;> rw [e]
  · exact h c hc
  · exact needleInit_invariant hc s
  · exact (h c hc).setTgt hinit ((target_toNat q _ _).trans_le (targetStep_le q _ _))
  · exact (h c hc).setEnable hinit b
  · exact (h c hc).count hinit hcnt
  · exact (h c hc).stepped hinit hne

/-- Settles O51: commands keep the MANO invariants, a tick touches no context, and reset meets them. -/
theorem stepKeepsTheManoInvariants : Obligations.StepKeepsTheManoInvariants := by
  unfold Obligations.StepKeepsTheManoInvariants
  intro s t h hstep
  rw [step_next_iff] at hstep
  rw [hstep]
  exact stepEffect_keeps (fun s l h => h) (manoInvariant_resetWith _)
    (fun s h c hc => (tickEvent_needle _ s c).symm ▸ h c hc) (fun i s h => h.after_effect i) h

/-- Settles O49: the values of 10_state.md rule R54 meet the invariants of both drives. -/
theorem resetMeetsTheInvariants : Obligations.ResetMeetsTheInvariants := by
  unfold Obligations.ResetMeetsTheInvariants
  exact ⟨tchInvariant_resetWith _, manoInvariant_resetWith _⟩

/-! ### Contexts do not interact -/

/-- What two runs of a command on context `c`, from `s` to `t` and from `s'` to `t'`, have in common: the same context
`c`, and the same response and trace where those agreed before (10_state.md rule R36). -/
def SameOnContext (c : Sel) (s s' t t' : State) : Prop :=
  t.needle c = t'.needle c ∧ (s.rsp = s'.rsp → t.rsp = t'.rsp) ∧ (s.trace = s'.trace → t.trace = t'.trace)

section TwoRuns

variable {P : Params} {c : Sel} {s s' : State} (hn : s.needle c = s'.needle c)

/-- Writing the same context in both states. -/
theorem SameOnContext.setCtx (c : Sel) (s s' : State) (x : NeedleContext) :
    SameOnContext c s s' (s.setCtx c x) (s'.setCtx c x) :=
  ⟨by simp only [State.needle_setCtx_self], id, id⟩

include hn

theorem SameOnContext.refl : SameOnContext c s s' s s' := ⟨hn, id, id⟩

/-- Two states that agree on context `c` give a command on it the same context to act on. -/
theorem SameOnContext.onContext {f f' : NeedleContext → State} (h : ∀ x, SameOnContext c s s' (f x) (f' x)) :
    SameOnContext c s s' (s.onContext P c f) (s'.onContext P c f') := by
  by_cases hc : c.val < P.nctx
  · rw [onContext_in hc, onContext_in hc, hn]; exact h _
  · rw [onContext_out hc, onContext_out hc]; exact .refl hn

theorem SameOnContext.onRegistered {f f' : NeedleContext → State} (h : ∀ x, SameOnContext c s s' (f x) (f' x)) :
    SameOnContext c s s' (s.onRegistered P c f) (s'.onRegistered P c f') :=
  .onContext hn fun x => by split; exacts [h x, .refl hn]

theorem needleInit_same (ha : s.arg = s'.arg) : SameOnContext c s s' (needleInit P c s) (needleInit P c s') :=
  .onContext hn fun _ => by simp only [State.argAt_congr ha]; exact .setCtx c s s' _

theorem setTarget_same (q : Int) : SameOnContext c s s' (setTarget P c q s) (setTarget P c q s') :=
  .onRegistered hn fun x => by split; exacts [.refl hn, .setCtx c s s' _]

theorem readQuantity_same : SameOnContext c s s' (readQuantity P c s) (readQuantity P c s') :=
  .onContext hn fun _ => ⟨hn, fun _ => rfl, id⟩

theorem setNeedleEnable_same (b : Bool) :
    SameOnContext c s s' (setNeedleEnable P c b s) (setNeedleEnable P c b s') :=
  .onRegistered hn fun _ => .setCtx c s s' _

omit hn in
theorem stepNeedle_same (P : Params) (c : Sel) (s s' : State) (x : NeedleContext) :
    SameOnContext c s s' (stepNeedle P c x s) (stepNeedle P c x s') :=
  ⟨by rw [stepNeedle_needle, stepNeedle_needle], id, fun h => congrArg (· ++ [_]) h⟩

theorem needleTask_same : SameOnContext c s s' (needleTask P c s) (needleTask P c s') := by
  refine .onRegistered hn fun x => ?_
  split
  · exact .refl hn
  · split
    · exact .refl hn
    · split
      · exact .setCtx c s s' _
      · exact stepNeedle_same P c s s' x

theorem effect_same {i : Instr} (hi : contextOf i = some c) (ha : s.arg = s'.arg) :
    SameOnContext c s s' (effect P i s) (effect P i s') := by
  cases i <;> simp only [contextOf, Option.some.injEq, reduceCtorEq] at hi <;> subst hi
  case ninit c => exact needleInit_same hn ha
  case nsett c q => exact setTarget_same hn q
  case ngetp c => exact readQuantity_same hn
  case nstart c => exact setNeedleEnable_same hn true
  case nstop c => exact setNeedleEnable_same hn false
  case ntask c => exact needleTask_same hn

end TwoRuns

/-- Settles O39: a command on `c` writes no other context, and reads no more than context `c` and the staging
registers. -/
theorem contextsDoNotInteract : Obligations.ContextsDoNotInteract := by
  unfold Obligations.ContextsDoNotInteract
  intro i c s t s' t' hi ht ht'
  rw [exec_next_iff] at ht ht'
  subst ht ht'
  refine ⟨fun d hd => ?_, fun hn ha => effect_same hn hi ha⟩
  obtain ⟨x, r, tr, he, -, -⟩ := effect_context_writes Config.params hi s
  rw [he]
  exact State.needle_setCtx_ne hd x s

/-! ### The writers of each field -/

/-- Settles O44: a command with a context index writes contexts, response and trace only; of the others each writes
its own fields. -/
theorem fieldsHaveOnlyTheirWriters : Obligations.FieldsHaveOnlyTheirWriters := by
  unfold Obligations.FieldsHaveOnlyTheirWriters
  intro i s t ht
  rw [exec_next_iff] at ht
  subst ht
  cases hi : contextOf i with
  | some c =>
    obtain ⟨x, r, tr, he, hrsp, -⟩ := effect_context_writes Config.params hi s
    rw [he]
    simpa [State.setCtx] using fun h => ⟨c, hrsp h⟩
  | none =>
    cases i <;> simp only [contextOf, reduceCtorEq] at hi
    case ttask => rw [effect, tchTask_writes]; simp
    case tinit => simp [effect, tchInit]
    case spdw v => simp [effect]
    case ldarg k v => simp [effect]
    case nop => simp [effect]
    case msinit => simp [effect, powerInit]
    case mspwr => simp [effect, managePower]

/-- Settles O45: each of the five commands that write a context writes its own fields of it. -/
theorem contextFieldsHaveOnlyTheirWriters : Obligations.ContextFieldsHaveOnlyTheirWriters := by
  unfold Obligations.ContextFieldsHaveOnlyTheirWriters
  intro i s t c ht hne
  rw [exec_next_iff] at ht
  subst ht
  obtain e | ⟨hi, -, -⟩ | ⟨-, ⟨q, hi, e⟩ | ⟨b, hi, e⟩ | ⟨hi, -, e⟩ | ⟨hi, -, e⟩⟩ :=
    effect_needle_cases Config.params i c s
  · simp [e]
  · exact absurd hi hne
  · rw [e]; simp [hi]
  · rw [e]; simp [hi, NeedleContext.setEnable]
  · rw [e]; simp [hi]
  · rw [e]; simp [hi]

/-! ### The trace -/

/-- A command leaves the trace alone, or is an `NTASK` that appends one pulse at the direction its context then has. -/
theorem effect_trace_cases (P : Params) (i : Instr) (s : State) :
    (effect P i s).trace = s.trace ∨
    ∃ c, i = .ntask c ∧ (effect P i s).trace = s.trace ++ [.stepPulse c ((effect P i s).needle c).dir] := by
  cases hi : contextOf i with
  | none => exact .inl (effect_no_context_frame P hi s).2
  | some c =>
    obtain ⟨x, r, tr, he, -, htr⟩ := effect_context_writes P hi s
    have hdir : (effect P i s).needle c = x := by rw [he]; exact State.needle_setCtx_self c x s
    have htrace : (effect P i s).trace = tr := by rw [he]
    exact htr.imp htrace.trans fun ⟨hntask, h⟩ => ⟨c, hntask, by rw [hdir, htrace, h]⟩

/-- Settles O47: of all strobes only reset and a command word reach the trace. -/
theorem onlyNtaskEmitsPulses : Obligations.OnlyNtaskEmitsPulses := by
  unfold Obligations.OnlyNtaskEmitsPulses
  intro s t hstep
  rw [step_next_iff] at hstep
  rw [hstep]
  obtain ⟨rest, hin, -⟩ | ⟨l, e⟩ | ⟨l, e⟩ | ⟨w, rest, i, hin, hd, e⟩ := stepEffect_cases Config.params s
  · exact .inr (.inl ⟨rest, hin⟩)
  · left; rw [e, State.setInputs_trace]
  · left; rw [e, tickEvent_trace, State.setInputs_trace]
  · rw [e]
    obtain h | ⟨c, rfl, h⟩ := effect_trace_cases Config.params i (s.setInputs rest)
    · exact .inl h
    · exact .inr (.inr ⟨c, w, rest, hin, hd, h⟩)

/-! ### Unregistered contexts -/

theorem readQuantity_unregistered {P : Params} {c : Sel} {s : State} (hi : (s.needle c).init = false) :
    readQuantity P c s = if c.val < P.nctx then s.setRsp 0 else s := by
  simp [readQuantity, State.onContext, reading, hi]

/-- Settles O37: both pins and every command but `NINIT` look at the registration first. -/
theorem unregisteredContextIsInert : Obligations.UnregisteredContextIsInert := by
  unfold Obligations.UnregisteredContextIsInert
  intro c q s hi
  refine ⟨dirPin_undriven _ hi, stepPin_undriven _ hi, ?_, ?_, ?_, ?_, ?_⟩ <;> rw [exec_eq, effect]
  · rw [setTarget, onRegistered_unregistered _ hi]
  · rw [setNeedleEnable, onRegistered_unregistered _ hi]
  · rw [setNeedleEnable, onRegistered_unregistered _ hi]
  · rw [needleTask, onRegistered_unregistered _ hi]
  · rw [readQuantity_unregistered hi]; rfl

end Sys2Proof.Machine
end

section
/-! PROOFS. The statements about the encoding (30_encoding.md): which command a word stands for, what its format
ignores, and that the encoder and the decoder undo each other. Everything rests on `decode_of_opField`. -/

namespace Sys2Proof

/-! ### The opcode chooses the command, the other fields its operands -/

/-- The command with the operands its format reads from a word (30_encoding.md rules R102 to R104). -/
def Instr.withOperands (w : CmdWord) : Instr → Instr
  | .nop => .nop
  | .tinit => .tinit
  | .ttask => .ttask
  | .spdw _ => .spdw (immField w)
  | .ldarg _ _ => .ldarg (selField w) (immField w)
  | .ninit _ => .ninit (selField w)
  | .nsett _ _ => .nsett (selField w) (sext24 (immField w))
  | .ngetp _ => .ngetp (selField w)
  | .nstart _ => .nstart (selField w)
  | .nstop _ => .nstop (selField w)
  | .ntask _ => .ntask (selField w)
  | .msinit => .msinit
  | .mspwr => .mspwr

@[simp] theorem opcode_withOperands (w : CmdWord) (i : Instr) : (i.withOperands w).opcode = i.opcode := by
  cases i <;> rfl

@[simp] theorem withOperands_withOperands (w : CmdWord) (i : Instr) :
    (i.withOperands w).withOperands w = i.withOperands w := by
  cases i <;> rfl

theorem wellFormed_withOperands (w : CmdWord) (i : Instr) : (i.withOperands w).wellFormed = true := by
  cases i with
  | nsett c q => exact sext24_quantityFits _
  | _ => rfl

/-- A word with the opcode of a command is that command, with the operands of the word (30_encoding.md rule R106). -/
theorem decode_of_opField {w : CmdWord} {i : Instr} (h : opField w = i.opcode) : decode w = .ok (i.withOperands w) := by
  unfold decode
  rw [h]
  cases i <;> rfl

/-! ### Reserved opcodes -/

/-- The fifty opcodes of 30_encoding.md rule R109. -/
abbrev ReservedOpcode (op : BitVec 6) : Prop :=
  (0x04 ≤ op.toNat ∧ op.toNat ≤ 0x07) ∨ op.toNat = 0x0F ∨ 0x12 ≤ op.toNat

theorem decode_of_reserved {w : CmdWord} (h : ReservedOpcode (opField w)) :
    decode w = .error (.reservedOpcode (opField w)) := by
  unfold ReservedOpcode at h
  unfold decode
  split
  case h_14 => rfl
  all_goals omega

/-- Every opcode outside rule R109 is that of a command. -/
theorem exists_opcode_eq {op : BitVec 6} (h : ¬ReservedOpcode op) : ∃ i : Instr, i.opcode = op := by
  have table : ∀ op : BitVec 6, ReservedOpcode op ∨
      op ∈ [Instr.nop, .tinit, .ttask, .spdw 0, .ldarg 0 0, .ninit 0, .nsett 0 0, .ngetp 0, .nstart 0, .nstop 0,
        .ntask 0, .msinit, .mspwr].map Instr.opcode := by decide
  obtain ⟨i, -, hi⟩ := List.mem_map.mp ((table op).resolve_left h)
  exact ⟨i, hi⟩

/-- A word decodes to a command exactly when it has its opcode and its operands. -/
theorem decode_ok_iff {w : CmdWord} {i : Instr} :
    decode w = .ok i ↔ opField w = i.opcode ∧ i.withOperands w = i := by
  constructor
  · intro hd
    by_cases hr : ReservedOpcode (opField w)
    · rw [decode_of_reserved hr] at hd
      cases hd
    · obtain ⟨j, hj⟩ := exists_opcode_eq hr
      rw [decode_of_opField hj.symm] at hd
      cases hd
      simp [hj]
  · rintro ⟨hop, harg⟩
    rw [decode_of_opField hop, harg]

/-- Settles O8: an opcode is reserved or that of a command, whose operands the word then supplies. -/
theorem decodingIsTotal : Obligations.DecodingIsTotal := by
  unfold Obligations.DecodingIsTotal
  intro w
  by_cases hr : ReservedOpcode (opField w)
  · exact (if_pos hr).mpr (decode_of_reserved hr)
  · obtain ⟨i, hi⟩ := exists_opcode_eq hr
    refine (if_neg hr).mpr ⟨i.withOperands w, decode_of_opField hi.symm, wellFormed_withOperands w i, ?_⟩
    rw [opcode_withOperands, hi, opField]

/-! ### Decoding undoes encoding -/

@[simp] theorem opField_encode (i : Instr) : opField (encode i) = i.opcode := by
  cases i <;> exact opField_packWord _ _ _

theorem withOperands_encode {i : Instr} (h : i.wellFormed = true) : i.withOperands (encode i) = i := by
  cases i with
  | nsett c q => simp [Instr.withOperands, encode, sext24_ofInt h]
  | _ => simp [Instr.withOperands, encode]

theorem decode_encode {i : Instr} (h : i.wellFormed = true) : decode (encode i) = .ok i :=
  decode_ok_iff.mpr ⟨opField_encode i, withOperands_encode h⟩

theorem eq_of_encode_eq {i j : Instr} (hi : i.wellFormed = true) (hj : j.wellFormed = true) (h : encode i = encode j) :
    i = j := by
  have hd := decode_encode hi
  rw [h, decode_encode hj] at hd
  cases hd
  rfl

/-- The four bytes of a word decode as the word does on the port (20_memory.md rule R74). -/
theorem decodeBytes_bytesOfWord {w : CmdWord} {i : Instr} (h : decode w = .ok i) (rest : List Byte) :
    decodeBytes (bytesOfWord w ++ rest) = .ok (i, rest) := by
  simp only [bytesOfWord, List.cons_append, List.nil_append, decodeBytes, wordOfBytes_bytes, h]

/-- Settles O7: the encoded word has the command's opcode and operands, and its bytes are put together to that word. -/
theorem decodeUndoesEncode : Obligations.DecodeUndoesEncode := by
  unfold Obligations.DecodeUndoesEncode
  intro i hi
  exact ⟨decode_encode hi, decodeBytes_bytesOfWord (decode_encode hi)⟩

/-! ### The bits a format does not use -/

/-- Masking a word masks its three fields. -/
theorem and_packWord (w : CmdWord) (op : BitVec 6) (sel : Sel) (imm : U24) :
    w &&& packWord op sel imm =
      (opField w &&& op) ++ (BitVec.ofFin (w := 2) (selField w) &&& BitVec.ofFin sel) ++ (immField w &&& imm) := by
  conv_lhs => rw [← packWord_fields w]
  rw [packWord, packWord, BitVec.and_append, BitVec.and_append]

/-- The mask of format Z leaves the opcode (30_encoding.md rule R102). -/
theorem and_maskZ (w : CmdWord) : w &&& 0xFC000000 = packWord (opField w) 0 0 := by
  have hm : (0xFC000000 : CmdWord) = packWord (BitVec.allOnes 6) 0 0 := by decide
  rw [hm, and_packWord, BitVec.and_allOnes]
  simp [packWord]

/-- The mask of format I leaves the opcode and the immediate. -/
theorem and_maskI (w : CmdWord) : w &&& 0xFCFFFFFF = packWord (opField w) 0 (immField w) := by
  have hm : (0xFCFFFFFF : CmdWord) = packWord (BitVec.allOnes 6) 0 (BitVec.allOnes 24) := by decide
  rw [hm, and_packWord, BitVec.and_allOnes, BitVec.and_allOnes]
  simp [packWord]

/-- The mask of format C leaves the opcode and the context index. -/
theorem and_maskC (w : CmdWord) : w &&& 0xFF000000 = packWord (opField w) (selField w) 0 := by
  have hm : (0xFF000000 : CmdWord) = packWord (BitVec.allOnes 6) 3 0 := by decide
  have hs : BitVec.ofFin (w := 2) 3 = BitVec.allOnes 2 := by decide
  rw [hm, and_packWord, hs, BitVec.and_allOnes, BitVec.and_allOnes]
  simp [packWord]

/-- Format CI uses every bit. -/
theorem and_maskCI (w : CmdWord) : w &&& 0xFFFFFFFF = packWord (opField w) (selField w) (immField w) := by
  rw [packWord_fields]
  exact BitVec.and_allOnes

/-- What is left of a word under the mask of a command with its opcode is what the encoder writes for the command the
word stands for (30_encoding.md rules R102, R110). -/
theorem and_usedBits {w : CmdWord} {i : Instr} (h : opField w = i.opcode) :
    w &&& usedBits i = encode (i.withOperands w) := by
  cases i <;> simp only [usedBits, encode, Instr.withOperands, and_maskZ, and_maskI, and_maskC, and_maskCI, h,
    ofInt_sext24] <;> rfl

@[simp] theorem opField_and_usedBits (w : CmdWord) (i : Instr) : opField (w &&& usedBits i) = opField w := by
  cases i <;> simp only [usedBits, and_maskZ, and_maskI, and_maskC, and_maskCI, opField_packWord]

/-- Settles O9: under the mask a word that decodes to a command is the encoder's word, which determines the command. -/
theorem reservedFieldsAreIgnored : Obligations.ReservedFieldsAreIgnored := by
  unfold Obligations.ReservedFieldsAreIgnored
  intro w i hd
  obtain ⟨hop, harg⟩ := decode_ok_iff.mp hd
  have hw : w &&& usedBits i = encode i := by rw [and_usedBits hop, harg]
  refine ⟨hw.symm, fun w' hw' => ?_⟩
  have hop' : opField w' = i.opcode := by rw [← opField_and_usedBits w' i, hw', opField_and_usedBits, hop]
  have henc : encode (i.withOperands w') = encode i := by rw [← and_usedBits hop', hw', hw]
  have hwf : i.wellFormed = true := harg ▸ wellFormed_withOperands w i
  rw [decode_of_opField hop', eq_of_encode_eq (wellFormed_withOperands w' i) hwf henc]

/-! ### Operands -/

/-- Settles O10: the fields are bit ranges of the word, and `sext24` reads the immediate as two's complement. -/
theorem immediatesAndSelectorsAreAssembled : Obligations.ImmediatesAndSelectorsAreAssembled := by
  unfold Obligations.ImmediatesAndSelectorsAreAssembled
  intro w
  refine ⟨fun h => ?_, fun h => ⟨selField w, rfl, ?_⟩, fun h => ⟨selField w, rfl, ?_⟩⟩
  · exact decode_of_opField (i := .spdw 0) h
  · exact decode_of_opField (i := .ldarg 0 0) h
  · rw [decode_of_opField (i := .nsett 0 0) h, Instr.withOperands, sext24_eq_toInt, immField]

/-- Settles O11: each vector is evaluated. -/
theorem specWordsDecode : Obligations.SpecWordsDecode := by
  unfold Obligations.SpecWordsDecode
  decide

end Sys2Proof

namespace Sys2Proof.Machine

/-! ### Words and contexts that do nothing -/

/-- A word with a reserved opcode is taken and changes nothing (30_encoding.md rule R109). -/
theorem step_reserved {s : State} {w : CmdWord} {rest : List Input} (h : s.inputs = .cmd w :: rest)
    (hr : ReservedOpcode (opField w)) : step s = .next (s.setInputs rest) := by
  simp only [step_cons h, acceptInput, runWord, decode_of_reserved hr]

/-- Settles O4: a word with a reserved opcode decodes to no command. -/
theorem reservedOpcodeDoesNothing : Obligations.ReservedOpcodeDoesNothing := by
  unfold Obligations.ReservedOpcodeDoesNothing
  intro s w rest hin hr
  exact step_reserved hin hr

/-- Settles O38: on an index not below `NCTX` the command is the identity. -/
theorem onlyExistingContextsAreTouched : Obligations.OnlyExistingContextsAreTouched := by
  unfold Obligations.OnlyExistingContextsAreTouched
  intro i c s t hi ht hne
  rw [exec_next_iff] at ht
  by_contra hc
  exact hne (ht.trans (effect_context_out hi hc s))

end Sys2Proof.Machine
end

section
/-! PROOFS. The statements about the Commutation Drive (40_tch.md): what its three commands do, how a step changes its
state, how long a sector lasts, and that it shares nothing with the needles. -/

namespace Sys2Proof.Machine

/-! ### The six branches of `TTASK` -/

section Branches

variable {P : Params} {s : State} {k : Sector}

theorem tchTask_engage (hs : s.tchState = .off) (hv : P.speedMin ≤ s.tchSpeed.toNat) :
    tchTask P s = ((s.setTmrRun true).loadTimer (delay P s.tchSpeed)).enterSector P .step1 := by
  simp [tchTask, hs, hv]

theorem tchTask_stay_off (hs : s.tchState = .off) (hv : s.tchSpeed.toNat < P.speedMin) :
    tchTask P s = s.setTchOut 0 := by
  simp [tchTask, hs, hv.not_ge]

theorem tchTask_stop (hs : s.tchState = .sector k) (hv : s.tchSpeed.toNat < P.speedMin) :
    tchTask P s = (s.setTmrRun false).enterOff := by
  simp [tchTask, hs, hv]

theorem tchTask_advance (hs : s.tchState = .sector k) (hv : P.speedMin ≤ s.tchSpeed.toNat)
    (he : s.tmrElapsed = true) :
    tchTask P s = (s.loadTimer (delay P s.tchSpeed)).enterSector P (nextSector k) := by
  simp [tchTask, hs, hv.not_gt, he]

theorem tchTask_dwell (hs : s.tchState = .sector k) (hv : P.speedMin ≤ s.tchSpeed.toNat)
    (he : s.tmrElapsed = false) : tchTask P s = s.setTchOut (P.pattern k) := by
  simp [tchTask, hs, hv.not_gt, he]

theorem tchTask_unrecognized (hs : s.tchState = .unrecognized) : tchTask P s = s := by
  simp [tchTask, hs]

end Branches

/-! ### The codes of the commutation state (10_state.md rule R26) -/

theorem stateCode_eq_zero {x : CommutationState} : stateCode x = 0 ↔ x = .off := by
  rcases x with _ | (_ | _ | _ | _ | _ | _) | _ <;> decide

theorem stateCode_eq_seven {x : CommutationState} : stateCode x = 7 ↔ x = .unrecognized := by
  rcases x with _ | (_ | _ | _ | _ | _ | _) | _ <;> decide

theorem stateCode_sector_mem (k : Sector) : stateCode (.sector k) ∈ ([1, 2, 3, 4, 5, 6] : List (BitVec 3)) := by
  cases k <;> decide

/-- The code of the next sector is one more, and STEP6 wraps to STEP1 (40_tch.md rule R138). -/
theorem stateCode_nextSector (k : Sector) :
    stateCode (.sector (nextSector k)) =
      if stateCode (.sector k) = 6 then 1 else stateCode (.sector k) + 1 := by
  cases k <;> rfl

/-! ### What the three commands do -/

/-- Settles O15: `SPDW` is one field update, of the word's own immediate. -/
theorem spdwStoresTheSpeed : Obligations.SpdwStoresTheSpeed := by
  unfold Obligations.SpdwStoresTheSpeed
  exact ⟨fun w h => decode_of_opField (i := .spdw 0) h, fun v s => exec_eq (.spdw v) s⟩

/-- A second `TINIT` finds every field already at the value it writes (40_tch.md rule R132). -/
theorem tchInit_tchInit (s : State) : tchInit (tchInit s) = tchInit s := rfl

/-- Settles O16: `TINIT` writes eight fields with constants, so it is idempotent. -/
theorem tinitInitialisesTheDrive : Obligations.TinitInitialisesTheDrive := by
  unfold Obligations.TinitInitialisesTheDrive
  refine ⟨fun w h => decode_of_opField (i := .tinit) h, fun s => ⟨tchInit s, exec_eq .tinit s, rfl, ?_⟩⟩
  rw [exec_eq, effect, tchInit_tchInit]

/-- Settles O17: each state and each test of the speed and of the flag selects its branch of `TTASK`. -/
theorem ttaskFollowsItsPseudocode : Obligations.TtaskFollowsItsPseudocode := by
  unfold Obligations.TtaskFollowsItsPseudocode
  refine ⟨fun w h => decode_of_opField (i := .ttask) h,
    fun s => ⟨tchTask Config.params s, exec_eq .ttask s, fun hoff => ?_, fun k hk => ?_, fun hunrec => ?_⟩⟩
  · rw [stateCode_eq_zero] at hoff
    split
    next hv => exact tchTask_engage hoff hv
    next hv => exact tchTask_stay_off hoff (not_le.mp hv)
  · split
    next hv => exact tchTask_stop hk hv
    next hv =>
      split
      next he => exact ⟨nextSector k, stateCode_nextSector k, tchTask_advance hk (not_lt.mp hv) he⟩
      next he => exact tchTask_dwell hk (not_lt.mp hv) (Bool.eq_false_iff.mpr he)
  · exact tchTask_unrecognized (stateCode_eq_seven.mp hunrec)

/-- Settles O19: OFF stays OFF with its output rewritten, and a sector stops. -/
theorem stopWithinOneInvocation : Obligations.StopWithinOneInvocation := by
  unfold Obligations.StopWithinOneInvocation
  intro s hrecognized hv
  refine ⟨tchTask Config.params s, exec_eq .ttask s, ?_⟩
  cases hs : s.tchState with
  | off => rw [tchTask_stay_off hs hv]; exact ⟨hs, rfl⟩
  | sector k => rw [tchTask_stop hs hv]; exact ⟨rfl, rfl⟩
  | unrecognized => rw [hs] at hrecognized; exact absurd hrecognized (by decide)

/-! ### How a step changes the commutation state -/

/-- Where `TTASK` changes the commutation state it engages, stops or advances (40_tch.md rule R138). -/
theorem tchTask_transition {P : Params} {s : State} (hne : (tchTask P s).tchState ≠ s.tchState) :
    (s.tchState = .off ∧ (tchTask P s).tchState = .sector .step1 ∧ P.speedMin ≤ s.tchSpeed.toNat) ∨
    ∃ k, s.tchState = .sector k ∧
      (((tchTask P s).tchState = .off ∧ s.tchSpeed.toNat < P.speedMin) ∨
      ((tchTask P s).tchState = .sector (nextSector k) ∧ s.tmrElapsed = true ∧
        P.speedMin ≤ s.tchSpeed.toNat)) := by
  obtain ⟨hs, hv, e⟩ | ⟨-, -, e⟩ | ⟨k, hk, hv, e⟩ | ⟨k, hk, hv, he, e⟩ | ⟨k, -, -, -, e⟩ | ⟨-, e⟩ :=
    tchTask_cases P s <;> rw [e] at hne ⊢
  · exact .inl ⟨hs, rfl, hv⟩
  · exact absurd rfl hne
  · exact .inr ⟨k, hk, .inl ⟨rfl, hv⟩⟩
  · exact .inr ⟨k, hk, .inr ⟨rfl, he, hv⟩⟩
  · exact absurd rfl hne
  · exact absurd rfl hne

/-- A step that changes the commutation state is a reset, a `TINIT`, or a `TTASK` (10_state.md rule R34). -/
theorem stepEffect_tchState_cases {P : Params} {s : State} (hne : (stepEffect P s).tchState ≠ s.tchState) :
    ((stepEffect P s).tchState = .off ∧ ∃ rest, s.inputs = .rst :: rest) ∨
    ∃ w rest, s.inputs = .cmd w :: rest ∧
      ((decode w = .ok .tinit ∧ (stepEffect P s).tchState = .off) ∨
      (decode w = .ok .ttask ∧ stepEffect P s = tchTask P (s.setInputs rest))) := by
  obtain ⟨rest, hin, e⟩ | ⟨l, e⟩ | ⟨l, e⟩ | ⟨w, rest, i, hin, hd, e⟩ := stepEffect_cases P s <;> rw [e] at hne ⊢
  · exact .inl ⟨rfl, rest, hin⟩
  · exact absurd rfl hne
  · exact absurd (tickEvent_tchState P _) hne
  · refine .inr ⟨w, rest, hin, ?_⟩
    by_cases htinit : i = .tinit
    · subst htinit; exact .inl ⟨hd, rfl⟩
    · by_cases httask : i = .ttask
      · subst httask; exact .inr ⟨hd, rfl⟩
      · exact absurd (congrArg Prod.fst (effect_drive P htinit httask (s.setInputs rest))) hne

/-- Settles O20: the strobe is a reset, a `TINIT` or a `TTASK`, and the last engages, stops or advances. -/
theorem commutationTransitions : Obligations.CommutationTransitions := by
  unfold Obligations.CommutationTransitions
  intro s t hstep hne
  rw [step_next_iff] at hstep
  subst hstep
  obtain ⟨hoff, hrst⟩ | ⟨w, rest, hin, ⟨hd, hoff⟩ | ⟨hd, e⟩⟩ := stepEffect_tchState_cases hne
  · exact .inl ⟨stateCode_eq_zero.mpr hoff, hrst⟩
  · exact .inr ⟨w, rest, hin, .inl ⟨hd, stateCode_eq_zero.mpr hoff⟩⟩
  · refine .inr ⟨w, rest, hin, .inr ⟨hd, ?_⟩⟩
    rw [e] at hne ⊢
    obtain ⟨hs, ht, hv⟩ | ⟨k, hk, ⟨ht, hv⟩ | ⟨ht, he, hv⟩⟩ := tchTask_transition (s := s.setInputs rest) hne <;>
      rw [ht]
    · exact .inl ⟨stateCode_eq_zero.mpr hs, rfl, hv⟩
    · replace hk : s.tchState = .sector k := hk
      rw [hk]
      exact .inr (.inl ⟨stateCode_sector_mem k, rfl, hv⟩)
    · replace hk : s.tchState = .sector k := hk
      rw [hk]
      cases k
      case step6 => exact .inr (.inr (.inr ⟨rfl, rfl, he, hv⟩))
      all_goals exact .inr (.inr (.inl ⟨by decide, rfl, he, hv⟩))

/-- `TTASK` neither enters nor leaves the unrecognized state (40_tch.md rule R136). -/
theorem tchTask_tchState_unrecognized {P : Params} {s : State} :
    (tchTask P s).tchState = .unrecognized ↔ s.tchState = .unrecognized := by
  by_cases hne : (tchTask P s).tchState = s.tchState
  · rw [hne]
  · obtain ⟨hs, ht, -⟩ | ⟨k, hs, ⟨ht, -⟩ | ⟨ht, -, -⟩⟩ := tchTask_transition hne <;> simp [hs, ht]

/-- Settles O18: of the steps that change the state, reset and `TINIT` end in OFF and `TTASK` leaves state 7 alone. -/
theorem unrecognizedStateIsInert : Obligations.UnrecognizedStateIsInert := by
  unfold Obligations.UnrecognizedStateIsInert
  simp only [ne_eq, stateCode_eq_seven]
  intro s t
  refine ⟨fun hs => ?_, fun hs hstep ht => ?_, fun hs hstep ht => ?_⟩
  · rw [exec_eq, effect, tchTask_unrecognized hs]
  · rw [step_next_iff] at hstep
    subst hstep
    obtain ⟨-, hrst⟩ | ⟨w, rest, hin, ⟨hd, -⟩ | ⟨-, e⟩⟩ := stepEffect_tchState_cases (fun h => ht (h.trans hs))
    · exact .inl hrst
    · exact .inr ⟨w, rest, hin, hd⟩
    · rw [e, tchTask_tchState_unrecognized] at ht
      exact absurd hs ht
  · rw [step_next_iff] at hstep
    subst hstep
    obtain ⟨hoff, -⟩ | ⟨w, rest, -, ⟨-, hoff⟩ | ⟨-, e⟩⟩ := stepEffect_tchState_cases (fun h => hs (h.symm.trans ht))
    · simp [ht] at hoff
    · simp [ht] at hoff
    · rw [e, tchTask_tchState_unrecognized] at ht
      exact hs ht

/-! ### The cycle of the six sectors -/

/-- The sectors met in fewer than six advances are all different (40_tch.md rule R138). -/
theorem nextSector_iterate_inj {k : Sector} {m n : Nat} (hm : m < 6) (hn : n < 6)
    (h : nextSector^[m] k = nextSector^[n] k) : m = n := by
  have table : ∀ m < 6, ∀ n < 6, nextSector^[m] k = nextSector^[n] k → m = n := by cases k <;> decide
  exact table m hm n hn h

/-- Settles O22: distinct sectors have distinct patterns (00_scope.md rule R8). -/
theorem sixDistinctPatternsInACycle : Obligations.SixDistinctPatternsInACycle := by
  unfold Obligations.SixDistinctPatternsInACycle
  intro k
  refine ⟨by cases k <;> rfl, fun m n hm hn h => ?_⟩
  exact nextSector_iterate_inj hm hn (Config.params.pattern_injective _ _ h)

/-! ### The dwell in a sector (40_tch.md rule R140) -/

/-- The number of ticks a delay of `D` microseconds lasts (60_exceptions.md rule R226). -/
def dwellTicks (P : Params) (D : U24) : Nat := max 1 ⌈(D.toNat : ℚ) / (P.tickUs : ℚ)⌉₊

theorem dwellTicks_pos (P : Params) (D : U24) : 0 < dwellTicks P D := by
  unfold dwellTicks
  omega

/-- Before its last tick a delay has not been reached. -/
theorem succ_lt_dwellTicks {P : Params} {D : U24} {n : Nat} :
    n + 1 < dwellTicks P D ↔ (n + 1) * P.tickUs < D.toNat := by
  have htick : (0 : ℚ) < P.tickUs := by exact_mod_cast P.tickUs_range.1
  rw [dwellTicks, lt_max_iff, Nat.lt_ceil, lt_div_iff₀ htick]
  norm_cast
  omega

@[simp] theorem tickEvent_tchSpeed (P : Params) (s : State) : (tickEvent P s).tchSpeed = s.tchSpeed := by
  rw [tickEvent_writes]

@[simp] theorem tickEvent_tmrRun (P : Params) (s : State) : (tickEvent P s).tmrRun = s.tmrRun := by
  rw [tickEvent_writes]

@[simp] theorem tickEvent_tmrDelay (P : Params) (s : State) : (tickEvent P s).tmrDelay = s.tmrDelay := by
  rw [tickEvent_writes]

theorem tickEvent_setInputs (P : Params) (l : List Input) (s : State) :
    tickEvent P (s.setInputs l) = (tickEvent P s).setInputs l := by
  unfold tickEvent State.advanceTimer
  rw [apply_ite (State.setInputs l)]
  rfl

/-- A drive in sector `k` that has taken `n` ticks of its delay `D` and not reached it, at speed `v`. -/
structure Dwelling (P : Params) (k : Sector) (D v : U24) (n : Nat) (s : State) : Prop where
  sector : s.tchState = .sector k
  running : s.tmrRun = true
  pending : s.tmrElapsed = false
  loaded : s.tmrDelay = D
  taken : s.tmrAcc.toNat = n * P.tickUs
  speed : s.tchSpeed = v

namespace Dwelling

variable {P : Params} {k : Sector} {D v : U24} {n : Nat} {s : State}

theorem setInputs (h : Dwelling P k D v n s) (l : List Input) : Dwelling P k D v n (s.setInputs l) :=
  ⟨h.sector, h.running, h.pending, h.loaded, h.taken, h.speed⟩

/-- A tick while the timer counts (60_exceptions.md rule R226). -/
theorem tickEvent_eq (h : Dwelling P k D v n s) :
    tickEvent P s =
      { s with
        tickCount := s.tickCount + 1
        tmrAcc := narrow32 ((n + 1) * P.tickUs)
        tmrElapsed := decide (D.toNat ≤ (n + 1) * P.tickUs) } := by
  rw [tickEvent, advanceTimer_counting (s := s.countTick) h.running h.pending, State.countTick_tmrAcc,
    State.countTick_tmrDelay, h.taken, h.loaded, Nat.succ_mul]
  rfl

/-- A tick that does not reach the delay and a `TTASK` leave the drive in its sector. -/
theorem round (h : Dwelling P k D v n s) (hv : P.speedMin ≤ v.toNat) (hn : (n + 1) * P.tickUs < D.toNat) :
    Dwelling P k D v (n + 1) (tchTask P (tickEvent P s)) := by
  have hpending : (tickEvent P s).tmrElapsed = false := by
    rw [h.tickEvent_eq]; exact decide_eq_false hn.not_ge
  have htaken : (tickEvent P s).tmrAcc.toNat = (n + 1) * P.tickUs := by
    rw [h.tickEvent_eq]; exact narrow32_toNat (by have := D.isLt; omega)
  rw [tchTask_dwell (k := k) (by rw [tickEvent_tchState, h.sector]) (by rwa [tickEvent_tchSpeed, h.speed]) hpending]
  constructor <;> simp [hpending, htaken, h.sector, h.running, h.loaded, h.speed]

/-- A tick that reaches the delay and a `TTASK` load the next sector. -/
theorem advance (h : Dwelling P k D v n s) (hv : P.speedMin ≤ v.toNat) (hn : D.toNat ≤ (n + 1) * P.tickUs) :
    tchTask P (tickEvent P s) = ((tickEvent P s).loadTimer (delay P v)).enterSector P (nextSector k) := by
  have helapsed : (tickEvent P s).tmrElapsed = true := by
    rw [h.tickEvent_eq]; exact decide_eq_true hn
  rw [tchTask_advance (k := k) (by rw [tickEvent_tchState, h.sector]) (by rwa [tickEvent_tchSpeed, h.speed]) helapsed,
    tickEvent_tchSpeed, h.speed]

end Dwelling

/-- The two steps of one turn of the loop of 40_tch.md rule R140. -/
theorem steps_tick_task {s : State} {rest : List Input} (h : s.inputs = tickThenTask 1 ++ rest) :
    steps 2 s = .next (tchTask Config.params (tickEvent Config.params (s.setInputs rest))) := by
  have htask : decode 0x08000000 = .ok .ttask := decode_of_opField (i := .ttask) (by decide)
  rw [steps_succ (step_tick h), tickEvent_setInputs, steps_succ (step_cmd rfl htask), tickEvent_setInputs]
  rfl

theorem tickThenTask_succ (n : Nat) : tickThenTask (n + 1) = tickThenTask n ++ tickThenTask 1 := by
  induction n with
  | zero => rfl
  | succ n ih => exact congrArg ([.tick, .cmd 0x08000000] ++ ·) ih

/-- As many turns as the delay has not yet lasted leave the drive in its sector. -/
theorem Dwelling.turns {k : Sector} {D v : U24} {n : Nat} {s : State} {rest : List Input}
    (h : Dwelling Config.params k D v 0 s) (hv : Config.params.speedMin ≤ v.toNat) (hn : n < dwellTicks Config.params D)
    (hin : s.inputs = tickThenTask n ++ rest) :
    ∃ t, steps (2 * n) s = .next t ∧ Dwelling Config.params k D v n t ∧ t.inputs = rest := by
  induction n generalizing rest with
  | zero => exact ⟨s, rfl, h, hin⟩
  | succ n ih =>
    rw [tickThenTask_succ, List.append_assoc] at hin
    obtain ⟨t, hsteps, hdwell, hrest⟩ := ih (Nat.lt_of_succ_lt hn) hin
    refine ⟨tchTask Config.params (tickEvent Config.params (t.setInputs rest)), ?_,
      (hdwell.setInputs rest).round hv (succ_lt_dwellTicks.mp hn), ?_⟩
    · rw [Nat.mul_succ, steps_add hsteps, steps_tick_task hrest]
    · exact (effect_inputs Config.params .ttask _).trans (tickEvent_inputs _ _)

/-- Settles O14: the turns before the last dwell, and the last one advances. -/
theorem dwellIsExactInTicks : Obligations.DwellIsExactInTicks := by
  unfold Obligations.DwellIsExactInTicks
  intro s k n rest hk hrun hpending hacc hv hin
  have h : Dwelling Config.params k s.tmrDelay s.tchSpeed 0 s :=
    ⟨hk, hrun, hpending, rfl, by rw [hacc, Nat.zero_mul]; rfl, rfl⟩
  refine ⟨fun hn => ?_, fun hn => ?_⟩
  · obtain ⟨t, hsteps, hdwell, hrest⟩ := h.turns hv hn hin
    exact ⟨t, hsteps, hdwell.sector, hdwell.loaded, hrest⟩
  · replace hn : n = dwellTicks Config.params s.tmrDelay := hn
    obtain ⟨m, rfl⟩ := Nat.exists_eq_add_one.mpr (hn ▸ dwellTicks_pos Config.params s.tmrDelay)
    rw [tickThenTask_succ, List.append_assoc] at hin
    obtain ⟨t, hsteps, hdwell, hrest⟩ := h.turns hv (by omega) hin
    have hreached : s.tmrDelay.toNat ≤ (m + 1) * Config.params.tickUs :=
      not_lt.mp (mt succ_lt_dwellTicks.mpr (by omega))
    refine ⟨_, by rw [Nat.mul_succ, steps_add hsteps, steps_tick_task hrest], ?_⟩
    rw [(hdwell.setInputs rest).advance hv hreached]
    exact ⟨rfl, rfl, rfl, rfl, rfl, tickEvent_inputs _ _⟩

/-! ### A TCH command and a MANO command commute -/

/-- Write everything the MANO commands act on: the staging registers, the contexts, the response and the trace
(41_mano.md rule R161). -/
def State.setMano (arg : Vector U24 4) (ctx : Vector NeedleContext 4) (rsp : U32) (trace : List Event) (s : State) :
    State := { s with arg := arg, ctx := ctx, rsp := rsp, trace := trace }

/-- A change of the state that neither reads nor writes what the MANO commands act on. -/
def MissesMano (F : State → State) : Prop :=
  ∀ arg ctx rsp trace s, F (s.setMano arg ctx rsp trace) = (F s).setMano arg ctx rsp trace

namespace MissesMano

variable {F : State → State} (hF : MissesMano F)

/-- The TCH commands act on the speed, the commutation state, the lines and the timer only (40_tch.md rule R130). -/
theorem of_tchCommand (P : Params) {i : Instr} (hi : isTchCommand i = true) : MissesMano (effect P i) := by
  intro arg ctx rsp trace s
  cases i <;> simp only [isTchCommand, Bool.false_eq_true] at hi
  case spdw v => rfl
  case tinit => rfl
  case ttask =>
    obtain ⟨hs, hv, e⟩ | ⟨hs, hv, e⟩ | ⟨k, hs, hv, e⟩ | ⟨k, hs, hv, he, e⟩ | ⟨k, hs, hv, he, e⟩ | ⟨hs, e⟩ :=
      tchTask_cases P s <;> rw [effect, effect, e]
    · exact tchTask_engage hs hv
    · exact tchTask_stay_off hs hv
    · exact tchTask_stop hs hv
    · exact tchTask_advance hs hv he
    · exact tchTask_dwell hs hv he
    · exact tchTask_unrecognized hs

include hF

/-- What the MANO commands act on is as it was. -/
theorem setMano_eq (s : State) : (F s).setMano s.arg s.ctx s.rsp s.trace = F s :=
  (hF s.arg s.ctx s.rsp s.trace s).symm

theorem needle_eq (s : State) (c : Sel) : (F s).needle c = s.needle c := by
  rw [← hF.setMano_eq s]; rfl

theorem argAt_eq (s : State) (k : Sel) : (F s).argAt k = s.argAt k := by
  rw [← hF.setMano_eq s]; rfl

theorem map_setArg (k : Sel) (v : U24) (s : State) : (F s).setArg k v = F (s.setArg k v) := by
  rw [← hF.setMano_eq s]; exact (hF (s.arg.set k v) s.ctx s.rsp s.trace s).symm

theorem map_setCtx (c : Sel) (x : NeedleContext) (s : State) : (F s).setCtx c x = F (s.setCtx c x) := by
  rw [← hF.setMano_eq s]; exact (hF s.arg (s.ctx.set c x) s.rsp s.trace s).symm

theorem map_setRsp (v : U32) (s : State) : (F s).setRsp v = F (s.setRsp v) := by
  rw [← hF.setMano_eq s]; exact (hF s.arg s.ctx v s.trace s).symm

theorem map_emit (e : Event) (s : State) : (F s).emit e = F (s.emit e) := by
  rw [← hF.setMano_eq s]; exact (hF s.arg s.ctx s.rsp (s.trace ++ [e]) s).symm

theorem map_needleInit (P : Params) (c : Sel) (s : State) : needleInit P c (F s) = F (needleInit P c s) :=
  onContext_map F (hF.needle_eq s c) fun _ => by simp only [hF.argAt_eq]; exact hF.map_setCtx c _ s

theorem map_setTarget (P : Params) (c : Sel) (q : Int) (s : State) : setTarget P c q (F s) = F (setTarget P c q s) :=
  onRegistered_map F (hF.needle_eq s c) fun x => by
    split
    · rfl
    · exact hF.map_setCtx c _ s

theorem map_readQuantity (P : Params) (c : Sel) (s : State) : readQuantity P c (F s) = F (readQuantity P c s) :=
  onContext_map F (hF.needle_eq s c) fun _ => hF.map_setRsp _ s

theorem map_setNeedleEnable (P : Params) (c : Sel) (b : Bool) (s : State) :
    setNeedleEnable P c b (F s) = F (setNeedleEnable P c b s) :=
  onRegistered_map F (hF.needle_eq s c) fun _ => hF.map_setCtx c _ s

theorem map_stepNeedle (P : Params) (c : Sel) (x : NeedleContext) (s : State) :
    stepNeedle P c x (F s) = F (stepNeedle P c x s) := by
  rw [stepNeedle, hF.map_setCtx, hF.map_emit, stepNeedle]

theorem map_needleTask (P : Params) (c : Sel) (s : State) : needleTask P c (F s) = F (needleTask P c s) := by
  refine onRegistered_map F (hF.needle_eq s c) fun x => ?_
  split
  · rfl
  · split
    · rfl
    · split
      · exact hF.map_setCtx c _ s
      · exact hF.map_stepNeedle P c x s

/-- A MANO command acts on what `F` misses only, so it passes through `F` (41_mano.md rule R161). -/
theorem manoCommand (P : Params) {j : Instr} (hj : isManoCommand j = true) (s : State) :
    effect P j (F s) = F (effect P j s) := by
  cases j <;> simp only [isManoCommand, Bool.false_eq_true] at hj
  case ldarg k v => exact hF.map_setArg k v s
  case ninit c => exact hF.map_needleInit P c s
  case nsett c q => exact hF.map_setTarget P c q s
  case ngetp c => exact hF.map_readQuantity P c s
  case nstart c => exact hF.map_setNeedleEnable P c true s
  case nstop c => exact hF.map_setNeedleEnable P c false s
  case ntask c => exact hF.map_needleTask P c s

end MissesMano

/-- Settles O48: a TCH command misses what a MANO command acts on. -/
theorem tchAndManoCommandsCommute : Obligations.TchAndManoCommandsCommute := by
  unfold Obligations.TchAndManoCommandsCommute
  intro i j s hi hj
  refine ⟨_, _, _, exec_eq i s, exec_eq j s, exec_eq j _, ?_⟩
  rw [exec_eq, (MissesMano.of_tchCommand Config.params hi).manoCommand Config.params hj]

end Sys2Proof.Machine
end

section
/-! PROOFS. The statements about the needles (41_mano.md): what each command makes of its context, the rounding of the
scale, and how a move runs and ends. -/

namespace Sys2Proof.Machine

/-! ### Commands on a registered context -/

/-- A command that asks for a registered context is a no-op on every other one (10_state.md rule R37). -/
theorem onRegistered_out {P : Params} {c : Sel} {s : State} (h : ¬(c.val < P.nctx ∧ (s.needle c).init = true))
    (f : NeedleContext → State) : s.onRegistered P c f = s :=
  (onRegistered_cases P c s f).resolve_left fun ⟨hc, hi, _⟩ => h ⟨hc, hi⟩

/-! ### The arithmetic of the scale and of the minimum period (41_mano.md rules R163, R165, R167) -/

theorem ceilDiv_le_iff {b : Nat} (hb : 0 < b) (a c : Nat) : ceilDiv a b ≤ c ↔ a ≤ b * c :=
  ceilDiv_le_iff_le_mul (α := ℕ) hb

theorem le_mul_ceilDiv {b : Nat} (hb : 0 < b) (a : Nat) : a ≤ b * ceilDiv a b :=
  (ceilDiv_le_iff hb a _).mp le_rfl

/-- `ceilDiv` is the ceiling of the exact quotient (00_scope.md rule R13). -/
theorem ceilDiv_eq_ceil {b : Nat} (hb : 0 < b) (a : Nat) : (ceilDiv a b : ℤ) = ⌈(a : ℚ) / b⌉ := by
  have hb' : (0 : ℚ) < b := by exact_mod_cast hb
  have h : ceilDiv a b = ⌈(a : ℚ) / b⌉₊ := by
    refine eq_of_forall_ge_iff fun c => ?_
    rw [ceilDiv_le_iff hb, Nat.ceil_le, div_le_iff₀' hb']
    norm_cast
  rw [h, Int.natCast_ceil_eq_ceil (by positivity)]

/-- `roundScale` rounds the exact quotient half up. -/
theorem roundScale_eq_floor {den : Nat} (hd : 0 < den) (a num : Nat) :
    (roundScale a num den : ℤ) = ⌊(a : ℚ) * num / den + 1 / 2⌋ := by
  have hd' : (den : ℚ) ≠ 0 := by exact_mod_cast hd.ne'
  have h : (a : ℚ) * num / den + 1 / 2 = ((2 * a * num + den : ℕ) : ℚ) / ((2 * den : ℕ) : ℚ) := by
    push_cast; field_simp
  rw [h, Rat.floor_natCast_div_natCast]
  rfl

/-- Rounding errs by at most a half. -/
theorem abs_roundScale_sub_le {den : Nat} (hd : 0 < den) (a num : Nat) :
    |(roundScale a num den : ℚ) - (a : ℚ) * num / den| ≤ 1 / 2 := by
  obtain ⟨hle, hlt⟩ := Int.floor_eq_iff.mp (roundScale_eq_floor hd a num).symm
  push_cast at hle hlt
  rw [abs_le]
  constructor <;> linarith

theorem eq_of_abs_sub_lt_one {m n : ℕ} (h : |(m : ℚ) - n| < 1) : m = n := by
  have h' : |(m : ℤ) - n| < 1 := by exact_mod_cast h
  exact_mod_cast sub_eq_zero.mp (Int.abs_lt_one_iff.mp h')

/-- On a scale of one step per unit rounding does nothing. -/
theorem roundScale_self {den : Nat} (hd : 0 < den) (a : Nat) : roundScale a den den = a := by
  have hd' : (den : ℚ) ≠ 0 := by exact_mod_cast hd.ne'
  have h := abs_roundScale_sub_le hd a den
  rw [mul_div_cancel_right₀ _ hd'] at h
  exact eq_of_abs_sub_lt_one (h.trans_lt (by norm_num))

/-- A quantity scaled to steps and back is off by at most half a step's quantity and half a unit (41_mano.md rule
R168). -/
theorem abs_roundTrip_sub_le {Q S : Nat} (hQ : 0 < Q) (hS : 0 < S) (q : Nat) :
    |(roundScale (roundScale q S Q) Q S : ℚ) - q| ≤ (Q : ℚ) / (2 * S) + 1 / 2 := by
  have hQ' : (0 : ℚ) < Q := by exact_mod_cast hQ
  have hS' : (0 : ℚ) < S := by exact_mod_cast hS
  have hstep := abs_roundScale_sub_le hQ q S
  have hunit := abs_roundScale_sub_le hS (roundScale q S Q) Q
  generalize roundScale q S Q = t at hstep hunit ⊢
  generalize roundScale t Q S = r at hunit ⊢
  calc |(r : ℚ) - q| = |((r : ℚ) - t * Q / S) + ((t : ℚ) - q * S / Q) * (Q / S)| := by
        congr 1; field_simp; ring
    _ ≤ |(r : ℚ) - t * Q / S| + |(t : ℚ) - q * S / Q| * (Q / S) := by
        refine (abs_add_le _ _).trans_eq ?_
        rw [abs_mul, abs_of_pos (div_pos hQ' hS')]
    _ ≤ 1 / 2 + 1 / 2 * (Q / S) := by gcongr
    _ = (Q : ℚ) / (2 * S) + 1 / 2 := by field_simp; ring

/-- With at least one step per unit nothing is lost (41_mano.md rule R168). -/
theorem roundTrip_eq {Q S : Nat} (hQ : 0 < Q) (hQS : Q ≤ S) (q : Nat) :
    roundScale (roundScale q S Q) Q S = q := by
  obtain rfl | hlt := hQS.eq_or_lt
  · rw [roundScale_self hQ, roundScale_self hQ]
  · have hS' : (0 : ℚ) < S := by exact_mod_cast hQ.trans hlt
    have hbound : (Q : ℚ) / (2 * S) + 1 / 2 < 1 := by
      have : (Q : ℚ) < S := by exact_mod_cast hlt
      rw [← lt_sub_iff_add_lt, div_lt_iff₀ (by positivity)]
      linarith
    exact eq_of_abs_sub_lt_one ((abs_roundTrip_sub_le hQ (hQ.trans hlt) q).trans_lt hbound)

/-- The bound of the round trip is within one quantization step (41_mano.md rule R168). -/
theorem half_add_half_le_max (x : ℚ) : x / 2 + 1 / 2 ≤ max 1 x := by
  obtain h | h := le_total x 1
  · rw [max_eq_left h]; linarith
  · rw [max_eq_right h]; linarith

/-- `PeriodMin` as rule R163 writes it. -/
theorem periodMin_eq_ceil (P : Params) (w : U24) :
    ((periodMin P w).toNat : ℤ) =
      if w = 0 then (P.periodInit.toNat : ℤ)
      else max 1 (min ⌈(1000000 : ℚ) / (w.toNat * P.tickUs)⌉ P.periodInit.toNat) := by
  split
  next hw => rw [periodMin_zero P (by rw [hw]; rfl)]
  next hw =>
    have hw' : w.toNat ≠ 0 := BitVec.toNat_ne.mp hw
    have hceil := ceilDiv_eq_ceil (Nat.mul_pos (Nat.pos_of_ne_zero hw') P.tickUs_range.1) 1000000
    push_cast at hceil
    rw [periodMin_pos P hw', ← hceil]
    push_cast
    rfl

/-- A ceiling that the upper clamp does not cut short realises no more than the speed asked for (41_mano.md rule
R163). -/
theorem le_periodMin_mul (P : Params) {w : U24} (h : 1000000 ≤ P.periodInit.toNat * P.tickUs * w.toNat) :
    1000000 ≤ (periodMin P w).toNat * P.tickUs * w.toNat := by
  have hw : w.toNat ≠ 0 := fun e => by rw [e] at h; omega
  have hpos : 0 < w.toNat * P.tickUs := Nat.mul_pos (by omega) P.tickUs_range.1
  have hceil : ceilDiv 1000000 (w.toNat * P.tickUs) ≤ P.periodInit.toNat := by
    rw [ceilDiv_le_iff hpos]
    linarith
  rw [periodMin_pos P hw, min_eq_left hceil]
  calc 1000000 ≤ w.toNat * P.tickUs * ceilDiv 1000000 (w.toNat * P.tickUs) := le_mul_ceilDiv hpos _
    _ ≤ w.toNat * P.tickUs * max 1 (ceilDiv 1000000 (w.toNat * P.tickUs)) := by gcongr; exact le_max_right _ _
    _ = _ := by ring

/-! ### Staging and initialisation -/

/-- Settles O23: one entry of the array is written, and the array is all that is written. -/
theorem ldargLoadsOneRegister : Obligations.LdargLoadsOneRegister := by
  unfold Obligations.LdargLoadsOneRegister
  refine ⟨fun w h => ⟨selField w, rfl, decode_of_opField (i := .ldarg 0 0) h⟩, fun k v s => ?_⟩
  refine ⟨s.setArg k v, exec_eq _ s, ?_, fun j hj => ?_, rfl⟩
  · rw [State.argAt_setArg, if_pos rfl]
  · rw [State.argAt_setArg, if_neg hj.symm]

/-- Settles O24: the context is written whole, from the staging registers and the parameters. -/
theorem ninitInitialisesItsContext : Obligations.NinitInitialisesItsContext := by
  unfold Obligations.NinitInitialisesItsContext
  refine ⟨fun w h => ⟨selField w, rfl, decode_of_opField (i := .ninit 0) h⟩, fun c s => ⟨_, exec_eq _ s, ?_⟩⟩
  rw [effect, needleInit]
  split
  next hc =>
    rw [onContext_in hc, State.needle_setCtx_self]
    refine ⟨rfl, rfl, rfl, rfl, periodMin_eq_ceil _ _, rfl, ?_, rfl, rfl, rfl, rfl,
      fun d hd => State.needle_setCtx_ne hd _ s, rfl⟩
    rw [apply_ite BitVec.toNat, min_def]
  next hc => exact onContext_out hc s _

theorem needleInit_periodMin {P : Params} {c : Sel} (hc : c.val < P.nctx) (s : State) :
    ((needleInit P c s).needle c).periodMin = periodMin P (s.argAt 3) := by
  rw [needleInit, onContext_in hc, State.needle_setCtx_self]

/-- Settles O25: the period is clamped to its bounds, and the ceiling rounds the speed down. -/
theorem minimumPeriodBoundsTheSpeed : Obligations.MinimumPeriodBoundsTheSpeed := by
  unfold Obligations.MinimumPeriodBoundsTheSpeed
  intro c s t hc ht
  rw [exec_next_iff] at ht
  rw [ht, effect, needleInit_periodMin hc]
  obtain ⟨hpos, hle⟩ := periodMin_bounds Config.params (s.argAt 3)
  exact ⟨hpos, hle, le_periodMin_mul _⟩

/-! ### Target and read-back -/

/-- On a context without a scale `NSETT` does nothing (41_mano.md rule R165). -/
theorem setTarget_unscaled (P : Params) {c : Sel} {s : State} (q : Int) (hq : (s.needle c).maxQ.toNat = 0) :
    setTarget P c q s = s := by
  obtain ⟨-, -, h⟩ | h := onRegistered_cases P c s _ <;> rw [setTarget, h]
  rw [if_pos hq]

/-- The target of `NSETT` as rule R165 writes it. -/
theorem targetStep_eq_floor (q : Int) {Q : Nat} (hQ : 0 < Q) (S : Nat) :
    (targetStep q Q S : ℤ) = ⌊((max 0 (min q Q) : ℤ) : ℚ) * S / Q + 1 / 2⌋ := by
  have hclamp : ((clamp q 0 Q).toNat : ℤ) = max 0 (min q Q) := by
    rw [clamp_eq _ _ _ (by omega)]; omega
  rw [targetStep_eq q hQ, roundScale_eq_floor hQ, ← hclamp]
  rfl

/-- A quantity on the scale is not clamped (41_mano.md rule R165). -/
theorem targetStep_natCast {q Q : Nat} (hQ : 0 < Q) (hq : q ≤ Q) (S : Nat) :
    targetStep q Q S = roundScale q S Q := by
  have hclamp : clamp q 0 Q = q := by rw [clamp_eq _ _ _ (by omega)]; omega
  rw [targetStep_eq q hQ, hclamp, Int.toNat_natCast]

/-- Settles O26: `setTarget_in` where the context is registered and has a scale, a no-op elsewhere. -/
theorem nsettStoresTheRoundedTarget : Obligations.NsettStoresTheRoundedTarget := by
  unfold Obligations.NsettStoresTheRoundedTarget
  refine ⟨fun w h => ⟨selField w, rfl, ?_⟩, fun c q s => ⟨_, exec_eq _ s, ?_⟩⟩
  · rw [decode_of_opField (i := .nsett 0 0) h, Instr.withOperands, sext24_eq_toInt, immField]
  · rw [effect]
    split
    next h =>
      obtain ⟨hc, hi, hq⟩ := h
      have hq' : (s.needle c).maxQ.toNat ≠ 0 := BitVec.toNat_ne.mp hq
      rw [setTarget_in q hc hi hq', State.needle_setCtx_self, target_toNat]
      exact ⟨targetStep_eq_floor q (by omega) _, targetStep_le q _ _, rfl,
        fun d hd => State.needle_setCtx_ne hd _ s, rfl⟩
    next h =>
      by_cases hq : (s.needle c).maxQ = 0
      · exact setTarget_unscaled _ q (by rw [hq]; rfl)
      · exact onRegistered_out (fun ⟨hc, hi⟩ => h ⟨hc, hi, hq⟩) _

/-- The reading of a registered context on its scale fits its field (41_mano.md rule R167). -/
theorem reading_toNat {x : NeedleContext} (hi : x.init = true) (hS : 0 < x.maxSteps.toNat)
    (hcur : x.cur.toNat ≤ x.maxSteps.toNat) :
    (reading x).toNat = roundScale x.cur.toNat x.maxQ.toNat x.maxSteps.toNat := by
  have hle := roundScale_le (num := x.maxQ.toNat) hS hcur
  have := x.maxQ.isLt
  simp only [reading, hi, hS.ne']
  exact narrow32_toNat (by omega)

/-- The reading of a context without a registration or a scale (41_mano.md rule R167). -/
theorem reading_eq_zero {x : NeedleContext} (h : x.init = false ∨ x.maxSteps = 0) : reading x = 0 := by
  obtain h | h := h <;> simp [reading, h]

theorem readQuantity_in {P : Params} {c : Sel} (hc : c.val < P.nctx) (s : State) :
    readQuantity P c s = s.setRsp (reading (s.needle c)) := onContext_in hc s _

/-- Settles O27: the response is the reading, which is 0 or the rounded quantity, at most the top of the scale. -/
theorem ngetpReportsTheRoundedQuantity : Obligations.NgetpReportsTheRoundedQuantity := by
  unfold Obligations.NgetpReportsTheRoundedQuantity
  refine ⟨fun w h => ⟨selField w, rfl, decode_of_opField (i := .ngetp 0) h⟩,
    fun c s hcur => ⟨_, exec_eq _ s, ?_⟩⟩
  rw [effect]
  split
  next hc =>
    rw [readQuantity_in hc, State.setRsp_rsp]
    refine ⟨rfl, ?_⟩
    split
    next h => exact reading_eq_zero h
    next h =>
      obtain ⟨hi, hS⟩ := not_or.mp h
      have hS' : 0 < (s.needle c).maxSteps.toNat := Nat.pos_of_ne_zero (BitVec.toNat_ne.mp hS)
      rw [reading_toNat (Bool.not_eq_false _ ▸ hi) hS' hcur]
      exact ⟨roundScale_eq_floor hS' _ _, roundScale_le hS' hcur⟩
  next hc => exact onContext_out hc s _

/-- Settles O28: the target is the rounded step of the quantity, so the reading is its round trip. -/
theorem quantityRoundTrip : Obligations.QuantityRoundTrip := by
  unfold Obligations.QuantityRoundTrip
  intro c q s hc hi hQ hS hq0 hqQ
  lift q to ℕ using hq0
  have hqQ' : q ≤ (s.needle c).maxQ.toNat := by exact_mod_cast hqQ
  refine ⟨_, exec_eq _ s, fun u hinit hmaxQ hsteps htgt hcur => ⟨_, exec_eq _ u, ?_⟩⟩
  rw [effect, setTarget_in _ hc hi (by omega), State.needle_setCtx_self] at hinit hmaxQ hsteps htgt
  simp only at hinit hmaxQ hsteps htgt
  have hpos : (u.needle c).cur.toNat = roundScale q (s.needle c).maxSteps.toNat (s.needle c).maxQ.toNat := by
    rw [hcur, htgt, target_toNat, targetStep_natCast (by omega) hqQ']
  have hscale : (u.needle c).cur.toNat ≤ (u.needle c).maxSteps.toNat := by
    rw [hpos, hsteps]; exact roundScale_le (by omega) hqQ'
  rw [effect, readQuantity_in hc, State.setRsp_rsp, reading_toNat (hinit.trans hi) (by rw [hsteps]; omega) hscale,
    hmaxQ, hsteps, hpos]
  refine ⟨?_, ?_, fun hQS => ?_⟩
  · exact_mod_cast abs_roundTrip_sub_le hQ hS q
  · rw [mul_comm, ← div_div]; exact half_add_half_le_max _
  · rw [roundTrip_eq hQ hQS]

/-! ### The enable flag -/

theorem setNeedleEnable_needle {P : Params} {c : Sel} {s : State} (b : Bool) (hc : c.val < P.nctx)
    (hi : (s.needle c).init = true) :
    (setNeedleEnable P c b s).needle c = { s.needle c with enable := b } := by
  rw [setNeedleEnable_in b hc hi, State.needle_setCtx_self]

/-- Of two writes of the enable flag the last one counts (41_mano.md rule R170). -/
theorem setNeedleEnable_setNeedleEnable {P : Params} {c : Sel} {s : State} (a b : Bool) (hc : c.val < P.nctx)
    (hi : (s.needle c).init = true) :
    setNeedleEnable P c b (setNeedleEnable P c a s) = setNeedleEnable P c b s := by
  rw [setNeedleEnable_in a hc hi, setNeedleEnable_in b hc hi,
    setNeedleEnable_in b hc (by rw [State.needle_setCtx_self]; exact hi), State.needle_setCtx_self,
    State.setCtx_setCtx]

/-- Settles O29: `setNeedleEnable_in` where the context is registered, a no-op elsewhere. -/
theorem nstartSetsTheEnableFlag : Obligations.NstartSetsTheEnableFlag := by
  unfold Obligations.NstartSetsTheEnableFlag
  refine ⟨fun w h => ⟨selField w, rfl, decode_of_opField (i := .nstart 0) h⟩, fun c s => ⟨_, exec_eq _ s, ?_⟩⟩
  rw [effect]
  split
  next h =>
    obtain ⟨hc, hi⟩ := h
    rw [setNeedleEnable_in true hc hi]
    exact ⟨State.needle_setCtx_self _ _ s, fun d hd => State.needle_setCtx_ne hd _ s, rfl⟩
  next h => exact onRegistered_out h _

/-- `NTASK` does nothing but on a registered, enabled context that is away from its target (41_mano.md rule R174). -/
theorem needleTask_idle {P : Params} {c : Sel} {s : State}
    (h : ¬(c.val < P.nctx ∧ (s.needle c).init = true ∧ (s.needle c).enable = true ∧
      (s.needle c).cur ≠ (s.needle c).tgt)) : needleTask P c s = s := by
  obtain e | ⟨hc, hi, he, hm, -⟩ | ⟨hc, hi, he, hm, -⟩ := needleTask_cases P c s
  · exact e
  · exact absurd ⟨hc, hi, he, hm⟩ h
  · exact absurd ⟨hc, hi, he, hm⟩ h

/-- Settles O32: each of the three alone makes `NTASK` a no-op. -/
theorem ntaskDisabledOrIdleDoesNothing : Obligations.NtaskDisabledOrIdleDoesNothing := by
  unfold Obligations.NtaskDisabledOrIdleDoesNothing
  intro c s h
  rw [exec_eq, effect, needleTask_idle]
  rintro ⟨-, hi, he, hm⟩
  simp [hi, he, hm] at h

/-- After `NSTOP` an `NTASK` does nothing (41_mano.md rules R170, R174). -/
theorem needleTask_disabled (P : Params) {c : Sel} {s : State} (h : (s.needle c).enable = false) :
    needleTask P c s = s :=
  needleTask_idle fun ⟨_, _, he, _⟩ => nomatch he.symm.trans h

/-- Settles O30: the flag alone is cleared, `NTASK` looks at the flag, and `NSTART` overwrites it. -/
theorem nstopClearsTheEnableFlag : Obligations.NstopClearsTheEnableFlag := by
  unfold Obligations.NstopClearsTheEnableFlag
  refine ⟨fun w h => ⟨selField w, rfl, decode_of_opField (i := .nstop 0) h⟩, fun c s => ⟨_, exec_eq _ s, ?_⟩⟩
  rw [effect]
  split
  next h =>
    obtain ⟨hc, hi⟩ := h
    have hneedle := setNeedleEnable_needle false hc hi
    refine ⟨hneedle, ?_, ?_, ?_, _, exec_eq _ _, ?_⟩
    · intro d hd
      rw [setNeedleEnable_in false hc hi, State.needle_setCtx_ne hd]
    · rw [setNeedleEnable_in false hc hi]; rfl
    · rw [exec_eq, effect, needleTask_disabled _ (by rw [hneedle])]
    · rw [effect, setNeedleEnable_setNeedleEnable _ _ hc hi, setNeedleEnable_needle true hc hi]
  next h => exact onRegistered_out h _

/-! ### Runs of MANO commands -/

/-- A MANO command on the port acts on the registers and leaves the later strobes waiting (log entry 4). -/
theorem step_mano {i : Instr} (hi : isManoCommand i = true) (hw : i.wellFormed = true) (s : State)
    (l : List Input) :
    step (s.setInputs (.cmd (encode i) :: l)) = .next ((effect Config.params i s).setInputs l) := by
  have hmiss : MissesMano (State.setInputs l) := fun _ _ _ _ _ => rfl
  rw [step_cmd (State.setInputs_inputs _ s) (decode_encode hw), exec_eq]
  exact congrArg _ (hmiss.manoCommand Config.params hi s)

/-- `n` times the same MANO command on the port. -/
theorem steps_replicate_mano {i : Instr} (hi : isManoCommand i = true) (hw : i.wellFormed = true) (n : Nat)
    (s : State) (l : List Input) :
    steps n (s.setInputs (List.replicate n (.cmd (encode i)) ++ l)) =
      .next (((effect Config.params i)^[n] s).setInputs l) := by
  induction n generalizing s with
  | zero => rfl
  | succ n ih =>
    rw [List.replicate_succ, List.cons_append, steps_succ (step_mano hi hw s _), ih, Function.iterate_succ_apply]

theorem setInputs_of_inputs {s : State} {l : List Input} (h : s.inputs = l) : s.setInputs l = s := by
  rw [← h]; rfl

/-- Settles O31: the stopped state is a fixed point of `NTASK`, and the last write of the flag restores it. -/
theorem stopFreezesAndStartResumes : Obligations.StopFreezesAndStartResumes := by
  unfold Obligations.StopFreezesAndStartResumes
  intro c n s rest hc hi he hin
  have hneedle := setNeedleEnable_needle false hc hi
  have hfrozen : (effect Config.params (.ntask c))^[n] (setNeedleEnable Config.params c false s) =
      setNeedleEnable Config.params c false s :=
    Function.iterate_fixed (needleTask_disabled _ (by rw [hneedle])) n
  have hresumed : setNeedleEnable Config.params c true s = s := by
    rw [setNeedleEnable_in true hc hi, ← he, State.setCtx_same]
  have hstop := step_mano (i := .nstop c) rfl rfl s
    (List.replicate n (.cmd (encode (.ntask c))) ++ .cmd (encode (.nstart c)) :: rest)
  have htasks := steps_replicate_mano (i := .ntask c) rfl rfl n (setNeedleEnable Config.params c false s)
    (.cmd (encode (.nstart c)) :: rest)
  have hstart := step_mano (i := .nstart c) rfl rfl (setNeedleEnable Config.params c false s) rest
  rw [setInputs_of_inputs hin, effect] at hstop
  rw [hfrozen] at htasks
  rw [effect, setNeedleEnable_setNeedleEnable _ _ hc hi, hresumed] at hstart
  refine ⟨_, (steps_succ hstop).trans htasks, hneedle, ?_, steps_succ hstart⟩
  rw [setNeedleEnable_in false hc hi]; rfl

/-! ### One step of a move -/

theorem stepNeedle_trace (P : Params) (c : Sel) (x : NeedleContext) (s : State) :
    (stepNeedle P c x s).trace = s.trace ++ [.stepPulse c (decide (x.cur.toNat < x.tgt.toNat))] := rfl

theorem stepNeedle_needle_ne (P : Params) {c d : Sel} (h : d ≠ c) (x : NeedleContext) (s : State) :
    (stepNeedle P c x s).needle d = s.needle d := by
  rw [stepNeedle, State.needle_emit, State.needle_setCtx_ne h]

/-- A moving needle whose counter has reached its period steps (41_mano.md rule R172). -/
theorem needleTask_due {P : Params} {c : Sel} {s : State} (hc : c.val < P.nctx) (hi : (s.needle c).init = true)
    (he : (s.needle c).enable = true) (hm : (s.needle c).cur ≠ (s.needle c).tgt)
    (hdue : (s.needle c).period.toNat ≤ (s.needle c).cnt.toNat + 1) :
    needleTask P c s = stepNeedle P c (s.needle c) s := by
  rw [needleTask_moving hc hi he hm, if_neg hdue.not_gt]

/-- A moving needle whose counter has not reached its period counts (41_mano.md rule R172). -/
theorem needleTask_waiting {P : Params} {c : Sel} {s : State} (hc : c.val < P.nctx) (hi : (s.needle c).init = true)
    (he : (s.needle c).enable = true) (hm : (s.needle c).cur ≠ (s.needle c).tgt)
    (hwait : (s.needle c).cnt.toNat + 1 < (s.needle c).period.toNat) :
    needleTask P c s = s.setCtx c { (s.needle c) with cnt := (s.needle c).cnt + 1 } := by
  rw [needleTask_moving hc hi he hm, if_pos hwait]

theorem remaining_eq_zero_iff {x : NeedleContext} : x.remaining = 0 ↔ x.cur = x.tgt := by
  rw [NeedleContext.remaining, BitVec.toNat_eq]
  omega

/-- The position moves by one in the direction of the step (41_mano.md rule R172). -/
theorem stepped_cur_eq_add (P : Params) {x : NeedleContext} (h : x.cur ≠ x.tgt) :
    ((x.stepped P).cur.toNat : ℤ) = x.cur.toNat + if (x.stepped P).dir then 1 else -1 := by
  have hne : x.cur.toNat ≠ x.tgt.toNat := BitVec.toNat_ne.mp h
  rw [stepped_cur_toNat P h, stepped_dir]
  by_cases hup : x.cur.toNat < x.tgt.toNat
  · rw [if_pos hup, if_pos (decide_eq_true hup)]; omega
  · rw [if_neg hup, if_neg (by simpa using hup)]; omega

/-- A step brings the needle one step nearer to its target (41_mano.md rule R172). -/
theorem remaining_stepped (P : Params) {x : NeedleContext} (h : x.cur ≠ x.tgt) :
    (x.stepped P).remaining + 1 = x.remaining := by
  have hne : x.cur.toNat ≠ x.tgt.toNat := BitVec.toNat_ne.mp h
  rw [NeedleContext.remaining, NeedleContext.remaining, stepped_cur_toNat P h, stepped_tgt]
  split <;> omega

/-- A step never passes the target (41_mano.md rule R178). -/
theorem stepped_same_side (P : Params) {x : NeedleContext} (h : x.cur ≠ x.tgt) (h' : (x.stepped P).cur ≠ x.tgt) :
    (x.stepped P).cur.toNat < x.tgt.toNat ↔ x.cur.toNat < x.tgt.toNat := by
  have hne : x.cur.toNat ≠ x.tgt.toNat := BitVec.toNat_ne.mp h
  have hne' : (x.stepped P).cur.toNat ≠ x.tgt.toNat := BitVec.toNat_ne.mp h'
  rw [stepped_cur_toNat P h] at hne' ⊢
  by_cases hup : x.cur.toNat < x.tgt.toNat
  · rw [if_pos hup] at hne' ⊢; omega
  · rw [if_neg hup] at hne' ⊢; omega

/-- The distance the ramp law is given is the distance remaining after the step (41_mano.md rule R172). -/
theorem distance_stepped (P : Params) (x : NeedleContext) :
    (distance x.tgt (x.stepped P).cur).toNat = (x.stepped P).remaining := by
  rw [distance_toNat, NeedleContext.remaining, stepped_tgt]

/-- Settles O33: the three cases of `NTASK`, each with its frame. -/
theorem ntaskCountsOrSteps : Obligations.NtaskCountsOrSteps := by
  unfold Obligations.NtaskCountsOrSteps
  refine ⟨fun w h => ⟨selField w, rfl, decode_of_opField (i := .ntask 0) h⟩, fun c s => ⟨_, exec_eq _ s, ?_⟩⟩
  rw [effect]
  split
  next h =>
    obtain ⟨hc, hi, he, hm⟩ := h
    split
    next hwait =>
      rw [needleTask_waiting hc hi he hm hwait, State.needle_setCtx_self]
      exact ⟨fun d hd => State.needle_setCtx_ne hd _ s, rfl, rfl, count_toNat hwait, rfl⟩
    next hdue =>
      rw [needleTask_due hc hi he hm (not_lt.mp hdue), stepNeedle_needle]
      refine ⟨fun d hd => stepNeedle_needle_ne _ hd _ s, rfl, rfl, ?_, stepped_cur_eq_add _ hm, rfl,
        ⟨_, ?_, stepped_period _ _⟩, rfl⟩
      · rw [stepped_dir, decide_eq_true_iff]
      · rw [distance_toNat, Int.natCast_natAbs]
  next h => exact needleTask_idle h

/-- Settles O34: an `NTASK` that moves the needle is a step, whose period is the ramp law's. -/
theorem periodFollowsTheRampContract : Obligations.PeriodFollowsTheRampContract := by
  unfold Obligations.PeriodFollowsTheRampContract
  intro c s t hc hinv ht hmoved
  rw [exec_next_iff] at ht
  rw [ht, effect] at hmoved ⊢
  obtain e | ⟨-, -, -, -, -, e⟩ | ⟨-, hi, -, hm, -, e⟩ := needleTask_cases Config.params c s <;> rw [e] at hmoved ⊢
  · exact absurd rfl hmoved
  · rw [State.needle_setCtx_self] at hmoved
    exact absurd rfl hmoved
  · rw [stepNeedle_needle]
    have hstepped := hinv.stepped hi hm
    have hramp := Config.params.ramp_admissible
    refine ⟨hstepped.periodMinLe, hstepped.periodLe, fun h => ?_, fun h => ?_⟩ <;>
      rw [← distance_stepped] at h <;> rw [stepped_period]
    · exact hramp.shortens _ _ _ _ _ hinv.periodMinPos hinv.periodMinLe hinv.periodLe h
    · exact hramp.lengthens _ _ _ _ _ hinv.periodMinPos hinv.periodMinLe hinv.periodLe h

/-- Settles O36: `NSETT` writes the target alone, and the step due next compares the position with it. -/
theorem retargetRedirectsTheNextStep : Obligations.RetargetRedirectsTheNextStep := by
  unfold Obligations.RetargetRedirectsTheNextStep
  intro c q s hc hi he hq
  refine ⟨_, _, exec_eq _ s, exec_eq _ _, ?_⟩
  rw [effect, effect, setTarget_in q hc hi (BitVec.toNat_ne.mp hq)]
  generalize BitVec.ofNat 24 _ = v
  have hneedle := State.needle_setCtx_self c { s.needle c with tgt := v } s
  rw [hneedle]
  refine ⟨rfl, rfl, rfl, fun hdue hv => ?_⟩
  rw [needleTask_due hc (by rw [hneedle]; exact hi) (by rw [hneedle]; exact he) (by rw [hneedle]; exact hv.symm)
    (by rw [hneedle]; exact hdue), hneedle, stepNeedle_needle, stepNeedle_trace]
  have hrem := remaining_stepped Config.params (x := { s.needle c with tgt := v }) hv.symm
  exact ⟨by omega, rfl⟩

/-! ### A whole move -/

/-- From `s` to `t` the needle of `c` has gone to its target of before, with one pulse per step, all of them toward it
(41_mano.md rule R178). -/
structure Arrived (c : Sel) (s t : State) : Prop where
  there : (t.needle c).cur = (s.needle c).tgt
  target : (t.needle c).tgt = (s.needle c).tgt
  pulses : t.trace = s.trace ++ List.replicate (s.needle c).remaining
    (.stepPulse c (decide ((s.needle c).cur.toNat < (s.needle c).tgt.toNat)))

theorem Arrived.refl {c : Sel} {s : State} (h : (s.needle c).cur = (s.needle c).tgt) : Arrived c s s :=
  ⟨h, rfl, by rw [remaining_eq_zero_iff.mpr h, List.replicate_zero, List.append_nil]⟩

/-- Counting is no part of the way. -/
theorem Arrived.of_count {c : Sel} {s t : State} {v : U24}
    (h : Arrived c (s.setCtx c { s.needle c with cnt := v }) t) : Arrived c s t := by
  obtain ⟨hthere, htarget, hpulses⟩ := h
  rw [State.needle_setCtx_self] at hthere htarget hpulses
  exact ⟨hthere, htarget, hpulses⟩

/-- A step is the first of the way. -/
theorem Arrived.of_step {P : Params} {c : Sel} {s t : State} (hm : (s.needle c).cur ≠ (s.needle c).tgt)
    (h : Arrived c (stepNeedle P c (s.needle c) s) t) : Arrived c s t := by
  obtain ⟨hthere, htarget, hpulses⟩ := h
  rw [stepNeedle_needle, stepped_tgt] at hthere htarget hpulses
  refine ⟨hthere, htarget, ?_⟩
  rw [hpulses, stepNeedle_trace, List.append_assoc, List.singleton_append, ← remaining_stepped P hm,
    List.replicate_succ]
  congr 2
  by_cases hlast : ((s.needle c).stepped P).cur = (s.needle c).tgt
  · rw [remaining_eq_zero_iff.mpr hlast, List.replicate_zero, List.replicate_zero]
  · simp only [stepped_same_side P hm hlast]

/-- The `NTASK`s a needle still needs are at most PERIOD_INIT per step, less those already counted (41_mano.md rule
R178). -/
theorem arrived_needleTask_iterate {P : Params} {c : Sel} (hc : c.val < P.nctx) (n : Nat) (s : State)
    (hinv : NeedleInvariant P (s.needle c)) (he : (s.needle c).enable = true)
    (hn : (s.needle c).remaining * P.periodInit.toNat ≤ n + (s.needle c).cnt.toNat) :
    Arrived c s ((needleTask P c)^[n] s) := by
  induction n generalizing s with
  | zero =>
    refine .refl (remaining_eq_zero_iff.mp ?_)
    have := hinv.counting
    have := hinv.periodLe
    by_contra h0
    have := Nat.le_mul_of_pos_left P.periodInit.toNat (Nat.pos_of_ne_zero h0)
    omega
  | succ n ih =>
    have hi := hinv.enabledRegistered he
    rw [Function.iterate_succ_apply]
    by_cases hm : (s.needle c).cur = (s.needle c).tgt
    · have hidle : needleTask P c s = s := needleTask_idle fun ⟨_, _, _, hne⟩ => hne hm
      rw [hidle, Function.iterate_fixed hidle]
      exact .refl hm
    · by_cases hwait : (s.needle c).cnt.toNat + 1 < (s.needle c).period.toNat
      · rw [needleTask_waiting hc hi he hm hwait]
        refine .of_count (ih _ ?_ ?_ ?_) <;> rw [State.needle_setCtx_self]
        · exact hinv.count hi hwait
        · exact he
        · show (s.needle c).remaining * _ ≤ n + ((s.needle c).cnt + 1).toNat
          rw [count_toNat hwait]; omega
      · rw [needleTask_due hc hi he hm (not_lt.mp hwait)]
        refine .of_step hm (ih _ ?_ ?_ ?_) <;> rw [stepNeedle_needle]
        · exact hinv.stepped hi hm
        · exact he
        · have := hinv.counting
          have := hinv.periodLe
          rw [← remaining_stepped P hm, Nat.succ_mul] at hn
          omega

/-- Settles O35: the waiting `NTASK`s are iterations of the needle task. -/
theorem needleArrivesWithoutOvershoot : Obligations.NeedleArrivesWithoutOvershoot := by
  unfold Obligations.NeedleArrivesWithoutOvershoot
  intro c s n rest hc hinv he hn hin
  have hsteps := steps_replicate_mano (i := .ntask c) rfl rfl n s rest
  rw [setInputs_of_inputs hin] at hsteps
  have harrived := arrived_needleTask_iterate hc n s hinv he (hn.trans (Nat.le_add_right n _))
  exact ⟨_, hsteps, rfl, harrived.there, harrived.target, harrived.pulses⟩

end Sys2Proof.Machine
end

section
/-! PROOFS. The statements about the power line and the no-operation (42_manos_system.md). Each command is its effect on
the state; the rail is the aggregation `anyEnabled`, of which `anyEnabled_iff` is the meaning. -/

namespace Sys2Proof.Machine

/-- Settles O40: `MSINIT` is two field updates with constants. -/
theorem msinitDrivesTheRailOff : Obligations.MsinitDrivesTheRailOff := by
  unfold Obligations.MsinitDrivesTheRailOff
  exact ⟨fun w h => decode_of_opField (i := .msinit) h, fun s => exec_eq .msinit s⟩

/-- The rail after `MSPWR` (42_manos_system.md rule R202). -/
@[simp] theorem managePower_msPwr (P : Params) (s : State) : (managePower P s).msPwr = anyEnabled P s := rfl

/-- Settles O41: `MSPWR` is one field update, of the aggregation over the registered contexts. -/
theorem mspwrFollowsTheEnables : Obligations.MspwrFollowsTheEnables := by
  unfold Obligations.MspwrFollowsTheEnables
  refine ⟨fun w h => decode_of_opField (i := .mspwr) h,
    fun s => ⟨managePower Config.params s, exec_eq .mspwr s, rfl, ?_⟩⟩
  rw [managePower_msPwr]
  exact anyEnabled_iff Config.params s

/-- Settles O42: the effect of `NOP` is the identity. -/
theorem nopChangesNothing : Obligations.NopChangesNothing := by
  unfold Obligations.NopChangesNothing
  exact ⟨fun w h => decode_of_opField (i := .nop) h, fun s => exec_eq .nop s⟩

end Sys2Proof.Machine
end

section
/-! PROOFS. The statements about completion and the tick (60_exceptions.md). Every strobe answers a next state; a tick
is `tickEvent`, and a run of ticks is its iterate, along which `Counted` follows the delay timer. -/

namespace Sys2Proof.Machine

/-! ### Completion, and two strobes in one cycle -/

/-- Settles O2: each command is its `effect` and each step its `stepEffect`. -/
theorem everyCommandAndStepCompletes : Obligations.EveryCommandAndStepCompletes := by
  unfold Obligations.EveryCommandAndStepCompletes
  exact ⟨fun i s => ⟨effect Config.params i s, exec_eq i s⟩, fun s => ⟨stepEffect Config.params s, step_eq s⟩⟩

/-- A tick and a command in one cycle: the step is the tick, and the command is the strobe left waiting
(60_exceptions.md rule R229). -/
theorem step_tickCmd {s : State} {w : CmdWord} {rest : List Input} (h : s.inputs = .tickCmd w :: rest) :
    step s = .next (tickEvent Config.params (s.setInputs (.cmd w :: rest))) := by
  rw [step_cons h]; rfl

/-- Settles O5: after its first step either order of strobing stands in the same state. -/
theorem simultaneousTickActsBeforeCommand : Obligations.SimultaneousTickActsBeforeCommand := by
  unfold Obligations.SimultaneousTickActsBeforeCommand
  intro s w rest hin
  have htick : step { s with inputs := .tick :: .cmd w :: rest } =
      .next (tickEvent Config.params (s.setInputs (.cmd w :: rest))) := step_tick rfl
  rw [steps_succ (step_tickCmd hin), steps_succ htick]

/-! ### One tick -/

@[simp] theorem tickEvent_tickCount (P : Params) (s : State) : (tickEvent P s).tickCount = s.tickCount + 1 := by
  rw [tickEvent_writes]

/-- A tick while the timer counts (60_exceptions.md rule R226). -/
theorem tickEvent_counting {P : Params} {s : State} (hr : s.tmrRun = true) (he : s.tmrElapsed = false) :
    (tickEvent P s).tmrAcc = narrow32 (s.tmrAcc.toNat + P.tickUs) ∧
    (tickEvent P s).tmrElapsed = decide (s.tmrDelay.toNat ≤ s.tmrAcc.toNat + P.tickUs) := by
  rw [tickEvent, advanceTimer_counting (s := s.countTick) hr he]
  exact ⟨rfl, rfl⟩

/-- A tick while the timer is stopped or has elapsed only counts (60_exceptions.md rules R225, R226). -/
theorem tickEvent_holding {P : Params} {s : State} (h : ¬(s.tmrRun = true ∧ s.tmrElapsed = false)) :
    tickEvent P s = s.countTick :=
  advanceTimer_holding (s := s.countTick) h

/-- Settles O12: the two cases of the timer, and the frame of the tick. -/
theorem tickAdvancesCountAndTimer : Obligations.TickAdvancesCountAndTimer := by
  unfold Obligations.TickAdvancesCountAndTimer
  intro s rest hin
  refine ⟨_, step_tick hin, ?_, ?_, ?_⟩
  · rw [tickEvent_tickCount, BitVec.toNat_add]; rfl
  · split
    case isTrue hcount =>
      obtain ⟨hacc, helapsed⟩ := tickEvent_counting (P := Config.params) (s := s.setInputs rest) hcount.1 hcount.2
      rw [hacc, helapsed]
      exact ⟨narrow32_toNat, decide_eq_true_iff⟩
    case isFalse hhold =>
      rw [tickEvent_holding (s := s.setInputs rest) hhold]
      exact ⟨rfl, rfl⟩
  · rw [tickEvent_tickCount]
    exact tickEvent_writes _ _

/-! ### A run of ticks -/

/-- `n` ticks on the port leave the later strobes waiting (log entry 4). -/
theorem steps_replicate_tick (n : Nat) (s : State) (l : List Input) :
    steps n (s.setInputs (List.replicate n .tick ++ l)) = .next (((tickEvent Config.params)^[n] s).setInputs l) := by
  induction n generalizing s with
  | zero => rfl
  | succ n ih =>
    have htick : step (s.setInputs (List.replicate (n + 1) .tick ++ l)) =
        .next ((tickEvent Config.params s).setInputs (List.replicate n .tick ++ l)) := by
      rw [← tickEvent_setInputs]; exact step_tick rfl
    rw [steps_succ htick, ih, Function.iterate_succ_apply]

theorem tickEvent_iterate_tickCount (P : Params) (n : Nat) (s : State) :
    ((tickEvent P)^[n] s).tickCount = s.tickCount + BitVec.ofNat 32 n := by
  induction n with
  | zero => exact (BitVec.add_zero _).symm
  | succ n ih => rw [Function.iterate_succ_apply', tickEvent_tickCount, ih, BitVec.add_assoc, BitVec.ofNat_add]; rfl

/-- The ticks of a delay are over exactly when their microseconds reach it. -/
theorem dwellTicks_le_succ {P : Params} {D : U24} {n : Nat} :
    dwellTicks P D ≤ n + 1 ↔ D.toNat ≤ (n + 1) * P.tickUs := by
  rw [← not_lt, succ_lt_dwellTicks, not_lt]

/-- A running timer that has taken `n` ticks since it was loaded with the delay `D` (60_exceptions.md rule R226). -/
structure Counted (P : Params) (D : U24) (n : Nat) (s : State) : Prop where
  running : s.tmrRun = true
  loaded : s.tmrDelay = D
  elapsed : s.tmrElapsed = true ↔ dwellTicks P D ≤ n
  /-- The accumulator stands still once the flag is set. -/
  taken : s.tmrElapsed = false → s.tmrAcc.toNat = n * P.tickUs

namespace Counted

variable {P : Params} {D : U24} {n : Nat} {s : State}

theorem of_load (hrun : s.tmrRun = true) (hpending : s.tmrElapsed = false) (hacc : s.tmrAcc = 0) :
    Counted P s.tmrDelay 0 s where
  running := hrun
  loaded := rfl
  elapsed := iff_of_false (by simp [hpending]) (dwellTicks_pos P s.tmrDelay).not_ge
  taken _ := by rw [hacc, Nat.zero_mul]; rfl

/-- While the flag is not set a tick adds `TICK_US` and compares; after that it leaves the timer alone. -/
theorem tick (h : Counted P D n s) : Counted P D (n + 1) (tickEvent P s) := by
  have hrun : (tickEvent P s).tmrRun = true := by rw [tickEvent_tmrRun, h.running]
  have hdelay : (tickEvent P s).tmrDelay = D := by rw [tickEvent_tmrDelay, h.loaded]
  cases hflag : s.tmrElapsed with
  | false =>
    obtain ⟨hacc, helapsed⟩ := tickEvent_counting (P := P) h.running hflag
    rw [h.taken hflag, ← Nat.add_one_mul] at hacc helapsed
    rw [h.loaded] at helapsed
    refine ⟨hrun, hdelay, ?_, fun hnot => ?_⟩
    · rw [helapsed, decide_eq_true_iff, dwellTicks_le_succ]
    · rw [helapsed, decide_eq_false_iff_not] at hnot
      rw [hacc]
      exact narrow32_toNat (by have := D.isLt; omega)
  | true =>
    have hset : (tickEvent P s).tmrElapsed = true := by
      rw [tickEvent_holding (by simp [hflag]), State.countTick_tmrElapsed, hflag]
    exact ⟨hrun, hdelay, iff_of_true hset (Nat.le_succ_of_le (h.elapsed.mp hflag)),
      fun hnot => absurd hset (by simp [hnot])⟩

theorem iterate (h : Counted P D 0 s) (n : Nat) : Counted P D n ((tickEvent P)^[n] s) := by
  induction n with
  | zero => exact h
  | succ n ih => rw [Function.iterate_succ_apply']; exact ih.tick

end Counted

/-- Settles O13: after `n` ticks the flag is set exactly when the delay has lasted. -/
theorem timerElapsesAtItsTick : Obligations.TimerElapsesAtItsTick := by
  unfold Obligations.TimerElapsesAtItsTick
  intro s n rest hrun hpending hacc hin
  have hsteps := steps_replicate_tick n s rest
  rw [setInputs_of_inputs hin] at hsteps
  exact ⟨_, hsteps, rfl, ((Counted.of_load hrun hpending hacc).iterate n).elapsed,
    tickEvent_iterate_tickCount Config.params n s⟩

end Sys2Proof.Machine
end

section
/-! PROOFS. The statements about reset and the hazards (70_reset_and_hazards.md): what a reset strobe leaves, what only
a reset strobe can undo, and that a new speed waits for the dwell in progress. -/

namespace Sys2Proof.Machine

/-! ### What only reset undoes -/

/-- What `s` drives and registers, `t` still drives and registers: the two output enables and every context. -/
structure StaysDriven (s t : State) : Prop where
  tch : s.tchOe = true → t.tchOe = true
  power : s.msOe = true → t.msOe = true
  context : ∀ c, (s.needle c).init = true → (t.needle c).init = true

theorem staysDriven_setInputs (s : State) (l : List Input) : StaysDriven s (s.setInputs l) := ⟨id, id, fun _ => id⟩

theorem staysDriven_tickEvent (P : Params) (s : State) : StaysDriven s (tickEvent P s) := by
  rw [tickEvent_writes]
  exact ⟨id, id, fun _ => id⟩

theorem StaysDriven.trans {s t u : State} (h : StaysDriven s t) (h' : StaysDriven t u) : StaysDriven s u :=
  ⟨h'.tch ∘ h.tch, h'.power ∘ h.power, fun c => h'.context c ∘ h.context c⟩

/-- No command unregisters a context: only `NINIT` writes the registration, and it sets it (10_state.md rule R37). -/
theorem effect_keeps_registration (P : Params) (i : Instr) {c : Sel} {s : State} (h : (s.needle c).init = true) :
    ((effect P i s).needle c).init = true := by
  obtain e | ⟨-, hc, e⟩ | ⟨-, ⟨_, -, e⟩ | ⟨_, -, e⟩ | ⟨-, -, e⟩ | ⟨-, -, e⟩⟩ := effect_needle_cases P i c s <;> rw [e]
  case inr.inl => exact needleInit_init hc s
  all_goals exact h

/-- The only command that writes an output enable is the `Init` command of its own drive, which sets it (10_state.md
rules R25, R49). -/
theorem staysDriven_effect (i : Instr) (s : State) : StaysDriven s (effect Config.params i s) := by
  obtain ⟨-, -, -, hpower, -, htch, -⟩ := fieldsHaveOnlyTheirWriters i s _ (exec_eq i s)
  refine ⟨fun h => ?_, fun h => ?_, fun c h => effect_keeps_registration _ i h⟩
  · by_contra hcleared
    obtain rfl : i = .tinit := htch fun e => hcleared (e.trans h)
    exact hcleared rfl
  · by_contra hcleared
    obtain rfl : i = .msinit := hpower fun e => hcleared (e.trans h)
    exact hcleared rfl

/-- A step that takes no reset strobe keeps what is driven and registered. -/
theorem rst_or_staysDriven_stepEffect (s : State) :
    (∃ rest, s.inputs = .rst :: rest) ∨ StaysDriven s (stepEffect Config.params s) := by
  obtain ⟨rest, hin, -⟩ | ⟨l, e⟩ | ⟨l, e⟩ | ⟨w, rest, i, -, -, e⟩ := stepEffect_cases Config.params s
  · exact .inl ⟨rest, hin⟩
  · exact .inr (e ▸ staysDriven_setInputs s l)
  · exact .inr (e ▸ (staysDriven_setInputs s l).trans (staysDriven_tickEvent _ _))
  · exact .inr (e ▸ (staysDriven_setInputs s rest).trans (staysDriven_effect i _))

/-- Settles O46: every other strobe keeps what is driven and registered. -/
theorem onlyResetUndrivesAndUnregisters : Obligations.OnlyResetUndrivesAndUnregisters := by
  unfold Obligations.OnlyResetUndrivesAndUnregisters
  intro s t hstep hcleared
  rw [step_next_iff] at hstep
  subst hstep
  refine (rst_or_staysDriven_stepEffect s).resolve_right fun hkept => ?_
  obtain ⟨hset, hclear⟩ | ⟨hset, hclear⟩ | ⟨c, hset, hclear⟩ := hcleared
  · exact Bool.eq_false_iff.mp hclear (hkept.tch hset)
  · exact Bool.eq_false_iff.mp hclear (hkept.power hset)
  · exact Bool.eq_false_iff.mp hclear (hkept.context c hset)

/-! ### The state a reset strobe leaves -/

/-- A reset strobe leaves the reset values, with the later strobes still waiting (rule R260, log entry 4). -/
theorem step_rst {s : State} {rest : List Input} (h : s.inputs = .rst :: rest) :
    step s = .next (State.reset.setInputs rest) := by
  rw [step_cons h]; rfl

/-- Settles O1: power-up and reset leave one and the same state but for the strobes, and its values are those of the
table. -/
theorem resetPutsEveryFieldAtItsValue : Obligations.ResetPutsEveryFieldAtItsValue := by
  unfold Obligations.ResetPutsEveryFieldAtItsValue
  intro t ht
  obtain ⟨rest, rfl⟩ : ∃ rest, t = State.reset.setInputs rest := by
    obtain rfl | ⟨s, rest, hin, hstep⟩ := ht
    · exact ⟨[], rfl⟩
    · rw [step_rst hin] at hstep
      cases hstep
      exact ⟨rest, rfl⟩
  have hneedle (c : Sel) : (State.reset.setInputs rest).needle c = NeedleContext.resetWith Config.params :=
    State.needle_resetWith Config.params c
  have hinit (c : Sel) : ((State.reset.setInputs rest).needle c).init = false := by rw [hneedle]; rfl
  refine ⟨rfl, rfl, rfl, rfl, rfl, rfl, rfl, rfl, rfl, State.argAt_resetWith Config.params, rfl, rfl, rfl, rfl, rfl, rfl,
    fun c _ => ?_⟩
  rw [dirPin_undriven _ (hinit c), stepPin_undriven _ (hinit c), hneedle]
  exact ⟨rfl, rfl, rfl, rfl, rfl, rfl, rfl, rfl, rfl, rfl, rfl, rfl, rfl⟩

/-- Settles O6: with no strobe the step is the identity, and reset takes one strobe. -/
theorem waitingBlockHoldsItsState : Obligations.WaitingBlockHoldsItsState := by
  unfold Obligations.WaitingBlockHoldsItsState
  exact fun s => ⟨step_nil, fun rest hin => ⟨_, step_rst hin, rfl⟩⟩

/-! ### A new speed in mid-sector (rule R270) -/

/-- While the dwell lasts, `TTASK` writes the pattern that already stands on the lines: it changes nothing. -/
theorem TchInvariant.tchTask_dwelling {P : Params} {s : State} {k : Sector} (h : TchInvariant P s)
    (hk : s.tchState = .sector k) (hv : P.speedMin ≤ s.tchSpeed.toNat) (he : s.tmrElapsed = false) :
    tchTask P s = s := by
  have hout : pat P s.tchState = some (P.pattern k) := by rw [hk, pat]
  rw [tchTask_dwell hk hv he, ← Option.some.inj (h.patterned.symm.trans hout)]
  rfl

/-- Settles O21: the new speed leaves the invariants as they are, and at or above the threshold the dwell goes on. -/
theorem speedChangeKeepsTheRunningDwell : Obligations.SpeedChangeKeepsTheRunningDwell := by
  unfold Obligations.SpeedChangeKeepsTheRunningDwell
  intro s k v h hk he hv
  refine ⟨s.setTchSpeed v, exec_eq (.spdw v) s, ?_⟩
  have hspeed : TchInvariant Config.params (s.setTchSpeed v) := h.of_drive_eq rfl
  rw [exec_eq, effect, hspeed.tchTask_dwelling hk hv he]
  rfl

end Sys2Proof.Machine
end
